-- ==== Sys2Proof/Word.lean ====
section
/-! DEFINITION. The word types of the block (00_scope.md R8 to R10): a character byte, a 16-bit block of a group
or key, a 32-bit slice of the container. -/

namespace Sys2Proof

/-- A character of a text buffer: 8 bits (10_state.md R26). -/
abbrev Byte := BitVec 8

/-- One block of a group, and every other 16-bit word of the block (00_scope.md R8). -/
abbrev Block := BitVec 16

/-- One slice of the TMC container: 32 bits (10_state.md R40). -/
abbrev Slice := BitVec 32

end Sys2Proof
end

