-- ==== Sys2Proof/Syntax.lean ====
section
/-! DEFINITION. The operations of the block (00_scope.md R15): one constructor of `Instr` for each row of
spec/opcode_table.json, with the fields its format gives it (30_encoding.md R104 to R114) and the operands of
R128; and the words the host puts on the ports (92_eei_decisions.md D1). -/

namespace Sys2Proof

/-- The fields every group has (30_encoding.md R101, R103): program identifier, traffic-program flag, program type. -/
structure Head where
  pi : Block
  tp : Bool
  pty : BitVec 5
deriving DecidableEq, Repr

/-- The block-B fields of format BASIC (30_encoding.md R104). -/
structure Basic where
  ta : Bool
  ms : Bool
  di : Bool
  seg : BitVec 2
deriving DecidableEq, Repr

/-- The operations: 32 group types on the GRP port, then the 18 commands of the CMD port (30_encoding.md R116,
R128). A bit the format marks "ignored" (R104 to R114) is no field. -/
inductive Instr where
  | group0A (h : Head) (b : Basic) (afpair : Block) (ch0 ch1 : Byte)
  | group0B (h : Head) (b : Basic) (ch0 ch1 : Byte)
  | group1A (h : Head) (la : Bool) (var : BitVec 3) (payload : BitVec 12) (pin : Block)
  | group1B (h : Head) (pin : Block)
  | group2A (h : Head) (tog : Bool) (seg : BitVec 4) (ch0 ch1 ch2 ch3 : Byte)
  | group2B (h : Head) (tog : Bool) (seg : BitVec 4) (ch0 ch1 : Byte)
  | group3A (h : Head) (cig : BitVec 5) (msg aid : Block)
  | group3B (h : Head) (sub : BitVec 5) (d : Block)
  | group4A (h : Head) (mjd : BitVec 17) (hour : BitVec 5) (minute : BitVec 6) (tzSign : Bool) (tzMag : BitVec 5)
  | group4B (h : Head) (sub : BitVec 5) (d : Block)
  | group5A (h : Head) (sub : BitVec 5) (c d : Block)
  | group5B (h : Head) (sub : BitVec 5) (d : Block)
  | group6A (h : Head) (sub : BitVec 5) (c d : Block)
  | group6B (h : Head) (sub : BitVec 5) (d : Block)
  | group7A (h : Head)
  | group7B (h : Head) (sub : BitVec 5) (d : Block)
  | group8A (h : Head) (sub : BitVec 5) (c d : Block)
  | group8B (h : Head) (sub : BitVec 5) (d : Block)
  | group9A (h : Head)
  | group9B (h : Head) (sub : BitVec 5) (d : Block)
  | group10A (h : Head) (tog : Bool) (seg : BitVec 1) (ch0 ch1 ch2 ch3 : Byte)
  | group10B (h : Head) (sub : BitVec 5) (d : Block)
  | group11A (h : Head) (sub : BitVec 5) (c d : Block)
  | group11B (h : Head) (sub : BitVec 5) (d : Block)
  | group12A (h : Head) (sub : BitVec 5) (c d : Block)
  | group12B (h : Head) (sub : BitVec 5) (d : Block)
  | group13A (h : Head)
  | group13B (h : Head) (sub : BitVec 5) (d : Block)
  | group14A (h : Head) (tpon : Bool) (var : BitVec 4) (payload pion : Block)
  | group14B (h : Head) (tpon taon : Bool) (pion : Block)
  | group15A (h : Head)
  | group15B (h : Head) (b : Basic)
  | reset
  | qStatus
  | qText (buf : BitVec 2)
  | qTime
  | evCfg (mask : BitVec 7)
  | cDecrypt (loc key : Block)
  | cDecryptX (loc : Block) (xorValue : BitVec 8) (startBit rotateAmount : BitVec 4)
  | cLookup (mode : Bool) (svc : BitVec 4) (idx : BitVec 5)
  | uClear
  | uLoad (i : BitVec 2) (chunk : BitVec 28)
  | uGlue
  | uFlt (w : Block)
  | uRestart
  | uSetCur (c : BitVec 8)
  | uRead (size : BitVec 5)
  | uLabel
  | tClass3A (y : Block)
  | tClass8A (x : BitVec 5) (y z : Block)
deriving DecidableEq, Repr

/-- A word the host puts on an operation port (60_exceptions.md R373, 92_eei_decisions.md D1): a 64-bit group on
GRP (30_encoding.md R100), or a command on CMD: the 8-bit code in bits 7:0 and the operands above it. The spec
gives the operands' widths and not their places; the 48-bit layout is the model's (log 3). -/
inductive PortWord where
  | group (w : BitVec 64)
  | command (w : BitVec 48)
deriving DecidableEq, Repr

/-- One request of the host: an operation, or the acknowledgement of the event on the EVT port
(60_exceptions.md R360, R361). -/
inductive Request where
  | op (p : PortWord)
  | ack
deriving DecidableEq, Repr

/-- Why the decoder turns a command word down (60_exceptions.md R353). No group word is turned down
(30_encoding.md R116, R117). -/
inductive DecodeError where
  /-- The command code is none of 30_encoding.md R128: "Any other `cmd` value has no meaning: refuse". Safe. -/
  | unknownCommand (cmd : BitVec 8)
  /-- An operand is wider than its field (60_exceptions.md R353, 93_implementation_defined.md I16). Safe. -/
  | operandTooWide
deriving DecidableEq, Repr

end Sys2Proof
end

