-- ==== Sys2Proof/Decode.lean ====
section
/-! DEFINITION. The decoder from port words to operations, total and rejecting by name, and after it the encoder
(30_encoding.md R100 to R116, R128; the places of command operands: log 3). -/

namespace Sys2Proof

/-! ### The group word -/

/-- A group as four 16-bit blocks (30_encoding.md R100). -/
structure Group where
  a : Block
  b : Block
  c : Block
  d : Block
deriving DecidableEq, Repr

/-- `W = g.A ‖ g.B ‖ g.C ‖ g.D` taken apart (30_encoding.md R100). -/
def groupOfWord (w : BitVec 64) : Group :=
  { a := w.extractLsb' 48 16, b := w.extractLsb' 32 16, c := w.extractLsb' 16 16, d := w.extractLsb' 0 16 }

/-- The 5-bit group-type code `B[15:11]` (30_encoding.md R101, R102). -/
def groupCode (g : Group) : BitVec 5 := g.b.extractLsb' 11 5

/-- The type-specific 5-bit field `B[4:0]` (30_encoding.md R101). -/
def groupSub (g : Group) : BitVec 5 := g.b.extractLsb' 0 5

/-- Program identifier, TP `B[10]` and PTY `B[9:5]` (30_encoding.md R101, R103). -/
def groupHead (g : Group) : Head :=
  { pi := g.a, tp := g.b.getLsbD 10, pty := g.b.extractLsb' 5 5 }

/-- Format BASIC (30_encoding.md R104): TA `B[4]`, MS `B[3]`, DI `B[2]`, segment `B[1:0]`. -/
def groupBasic (g : Group) : Basic :=
  { ta := g.b.getLsbD 4, ms := g.b.getLsbD 3, di := g.b.getLsbD 2, seg := g.b.extractLsb' 0 2 }

/-- The character of the high byte, first on air (20_memory.md R73). -/
def hiChar (w : Block) : Byte := w.extractLsb' 8 8

/-- The character of the low byte (20_memory.md R73). -/
def loChar (w : Block) : Byte := w.extractLsb' 0 8

/-- Format SLOW, type 1A (30_encoding.md R105). -/
def decodeSlow (g : Group) : Instr :=
  .group1A (groupHead g) (g.c.getLsbD 15) (g.c.extractLsb' 12 3) (g.c.extractLsb' 0 12) g.d

/-- Format RT, type 2A (30_encoding.md R107): toggle `B[4]`, segment `B[3:0]`, four characters. -/
def decodeRt4 (g : Group) : Instr :=
  .group2A (groupHead g) (g.b.getLsbD 4) (g.b.extractLsb' 0 4) (hiChar g.c) (loChar g.c) (hiChar g.d) (loChar g.d)

/-- Format RT, type 2B (30_encoding.md R107): two characters from block D. -/
def decodeRt2 (g : Group) : Instr :=
  .group2B (groupHead g) (g.b.getLsbD 4) (g.b.extractLsb' 0 4) (hiChar g.d) (loChar g.d)

/-- Format CT, type 4A (30_encoding.md R110, R115 (a) (b)): MJD `B[1:0] ‖ C[15:1]`, hour `C[0] ‖ D[15:12]`,
minute `D[11:6]`, sign `D[5]`, magnitude `D[4:0]`. -/
def decodeCt (g : Group) : Instr :=
  .group4A (groupHead g) (g.b.extractLsb' 0 2 ++ g.c.extractLsb' 1 15) (g.c.extractLsb' 0 1 ++ g.d.extractLsb' 12 4)
    (g.d.extractLsb' 6 6) (g.d.getLsbD 5) (g.d.extractLsb' 0 5)

/-- Format PTYN, type 10A (30_encoding.md R111): toggle `B[4]`, segment `B[0]`, four characters. -/
def decodePtyn (g : Group) : Instr :=
  .group10A (groupHead g) (g.b.getLsbD 4) (g.b.extractLsb' 0 1) (hiChar g.c) (loChar g.c) (hiChar g.d) (loChar g.d)

/-- Format EON, type 14A (30_encoding.md R112): TP(ON) `B[4]`, variant `B[3:0]`, payload C, PI(ON) D. -/
def decodeEon (g : Group) : Instr :=
  .group14A (groupHead g) (g.b.getLsbD 4) (g.b.extractLsb' 0 4) g.c g.d

/-- Format EONB, type 14B (30_encoding.md R113): TP(ON) `B[4]`, TA(ON) `B[3]`, PI(ON) D. -/
def decodeEonB (g : Group) : Instr :=
  .group14B (groupHead g) (g.b.getLsbD 4) (g.b.getLsbD 3) g.d

/-- The opcode map of the group port, "a total function over all 32 codes" (30_encoding.md R116). -/
def decodeGroup (w : BitVec 64) : Instr :=
  let g := groupOfWord w
  let h := groupHead g
  let sub := groupSub g
  match (groupCode g).toNat with
  | 0 => .group0A h (groupBasic g) g.c (hiChar g.d) (loChar g.d)
  | 1 => .group0B h (groupBasic g) (hiChar g.d) (loChar g.d)
  | 2 => decodeSlow g
  | 3 => .group1B h g.d
  | 4 => decodeRt4 g
  | 5 => decodeRt2 g
  | 6 => .group3A h sub g.c g.d
  | 7 => .group3B h sub g.d
  | 8 => decodeCt g
  | 9 => .group4B h sub g.d
  | 10 => .group5A h sub g.c g.d
  | 11 => .group5B h sub g.d
  | 12 => .group6A h sub g.c g.d
  | 13 => .group6B h sub g.d
  | 14 => .group7A h
  | 15 => .group7B h sub g.d
  | 16 => .group8A h sub g.c g.d
  | 17 => .group8B h sub g.d
  | 18 => .group9A h
  | 19 => .group9B h sub g.d
  | 20 => decodePtyn g
  | 21 => .group10B h sub g.d
  | 22 => .group11A h sub g.c g.d
  | 23 => .group11B h sub g.d
  | 24 => .group12A h sub g.c g.d
  | 25 => .group12B h sub g.d
  | 26 => .group13A h
  | 27 => .group13B h sub g.d
  | 28 => decodeEon g
  | 29 => decodeEonB g
  | 30 => .group15A h
  | _ => .group15B h (groupBasic g)

/-! ### The command word -/

/-- The command code: bits 7:0 of the command word (30_encoding.md R128). -/
def commandCode (w : BitVec 48) : BitVec 8 := w.extractLsb' 0 8

/-- Accept `i` when every bit of the command word outside `used` is 0; otherwise an operand is wider than its field
(60_exceptions.md R353; the layout is log 3). -/
def operandsWithin (used w : BitVec 48) (i : Instr) : Except DecodeError Instr :=
  if w &&& ~~~used = 0#48 then .ok i else .error .operandTooWide

/-- The commands of 30_encoding.md R128. Each operand stands in whole bytes above the code, in the order R128 lists
them, the first lowest, each right-aligned in its bytes (log 3). -/
def decodeCommand (w : BitVec 48) : Except DecodeError Instr :=
  match (commandCode w).toNat with
  | 0x00 => operandsWithin 0x0000000000FF w .reset
  | 0x01 => operandsWithin 0x0000000000FF w .qStatus
  | 0x02 => operandsWithin 0x0000000003FF w (.qText (w.extractLsb' 8 2))
  | 0x03 => operandsWithin 0x0000000000FF w .qTime
  | 0x04 => operandsWithin 0x000000007FFF w (.evCfg (w.extractLsb' 8 7))
  | 0x10 => operandsWithin 0x00FFFFFFFFFF w (.cDecrypt (w.extractLsb' 8 16) (w.extractLsb' 24 16))
  | 0x11 => operandsWithin 0x0F0FFFFFFFFF w
      (.cDecryptX (w.extractLsb' 8 16) (w.extractLsb' 24 8) (w.extractLsb' 32 4) (w.extractLsb' 40 4))
  | 0x12 => operandsWithin 0x00001F0F01FF w
      (.cLookup (w.getLsbD 8) (w.extractLsb' 16 4) (w.extractLsb' 24 5))
  | 0x20 => operandsWithin 0x0000000000FF w .uClear
  | 0x21 => operandsWithin 0x0FFFFFFF03FF w (.uLoad (w.extractLsb' 8 2) (w.extractLsb' 16 28))
  | 0x22 => operandsWithin 0x0000000000FF w .uGlue
  | 0x23 => operandsWithin 0x000000FFFFFF w (.uFlt (w.extractLsb' 8 16))
  | 0x24 => operandsWithin 0x0000000000FF w .uRestart
  | 0x25 => operandsWithin 0x00000000FFFF w (.uSetCur (w.extractLsb' 8 8))
  | 0x26 => operandsWithin 0x000000001FFF w (.uRead (w.extractLsb' 8 5))
  | 0x27 => operandsWithin 0x0000000000FF w .uLabel
  | 0x30 => operandsWithin 0x000000FFFFFF w (.tClass3A (w.extractLsb' 8 16))
  | 0x31 => operandsWithin 0xFFFFFFFF1FFF w
      (.tClass8A (w.extractLsb' 8 5) (w.extractLsb' 16 16) (w.extractLsb' 32 16))
  | _ => .error (.unknownCommand (commandCode w))

/-- The decoder: total on any port word; a word it does not take is rejected by name (60_exceptions.md R353). -/
def decode : PortWord → Except DecodeError Instr
  | .group w => .ok (decodeGroup w)
  | .command w => decodeCommand w

/-! ### The encoder -/

/-- `W = A ‖ B ‖ C ‖ D` with `B = code ‖ tp ‖ pty ‖ sub` (30_encoding.md R100, R101). -/
def groupWord (code : BitVec 5) (h : Head) (sub : BitVec 5) (c d : Block) : PortWord :=
  .group (h.pi ++ (code ++ BitVec.ofBool h.tp ++ h.pty ++ sub) ++ c ++ d)

/-- The block-B sub-field of format BASIC (30_encoding.md R104). -/
def basicSub (b : Basic) : BitVec 5 :=
  BitVec.ofBool b.ta ++ BitVec.ofBool b.ms ++ BitVec.ofBool b.di ++ b.seg

/-- A command word: the code in bits 7:0, the operand bytes above it (log 3). -/
def commandWord (code : BitVec 8) (operands : BitVec 40) : PortWord := .command (operands ++ code)

/-- The port word of an operation; an ignored bit (30_encoding.md R104 to R114) is written 0. -/
def encode : Instr → PortWord
  | .group0A h b afpair ch0 ch1 => groupWord 0 h (basicSub b) afpair (ch0 ++ ch1)
  | .group0B h b ch0 ch1 => groupWord 1 h (basicSub b) 0 (ch0 ++ ch1)
  | .group1A h la var payload pin => groupWord 2 h 0 (BitVec.ofBool la ++ var ++ payload) pin
  | .group1B h pin => groupWord 3 h 0 0 pin
  | .group2A h tog seg ch0 ch1 ch2 ch3 => groupWord 4 h (BitVec.ofBool tog ++ seg) (ch0 ++ ch1) (ch2 ++ ch3)
  | .group2B h tog seg ch0 ch1 => groupWord 5 h (BitVec.ofBool tog ++ seg) 0 (ch0 ++ ch1)
  | .group3A h cig msg aid => groupWord 6 h cig msg aid
  | .group3B h sub d => groupWord 7 h sub 0 d
  | .group4A h mjd hour minute tzSign tzMag =>
    groupWord 8 h (0#3 ++ mjd.extractLsb' 15 2) (mjd.extractLsb' 0 15 ++ hour.extractLsb' 4 1)
      (hour.extractLsb' 0 4 ++ minute ++ BitVec.ofBool tzSign ++ tzMag)
  | .group4B h sub d => groupWord 9 h sub 0 d
  | .group5A h sub c d => groupWord 10 h sub c d
  | .group5B h sub d => groupWord 11 h sub 0 d
  | .group6A h sub c d => groupWord 12 h sub c d
  | .group6B h sub d => groupWord 13 h sub 0 d
  | .group7A h => groupWord 14 h 0 0 0
  | .group7B h sub d => groupWord 15 h sub 0 d
  | .group8A h sub c d => groupWord 16 h sub c d
  | .group8B h sub d => groupWord 17 h sub 0 d
  | .group9A h => groupWord 18 h 0 0 0
  | .group9B h sub d => groupWord 19 h sub 0 d
  | .group10A h tog seg ch0 ch1 ch2 ch3 =>
    groupWord 20 h (BitVec.ofBool tog ++ 0#3 ++ seg) (ch0 ++ ch1) (ch2 ++ ch3)
  | .group10B h sub d => groupWord 21 h sub 0 d
  | .group11A h sub c d => groupWord 22 h sub c d
  | .group11B h sub d => groupWord 23 h sub 0 d
  | .group12A h sub c d => groupWord 24 h sub c d
  | .group12B h sub d => groupWord 25 h sub 0 d
  | .group13A h => groupWord 26 h 0 0 0
  | .group13B h sub d => groupWord 27 h sub 0 d
  | .group14A h tpon var payload pion => groupWord 28 h (BitVec.ofBool tpon ++ var) payload pion
  | .group14B h tpon taon pion => groupWord 29 h (BitVec.ofBool tpon ++ BitVec.ofBool taon ++ 0#3) 0 pion
  | .group15A h => groupWord 30 h 0 0 0
  | .group15B h b => groupWord 31 h (basicSub b) 0 0
  | .reset => commandWord 0x00 0
  | .qStatus => commandWord 0x01 0
  | .qText buf => commandWord 0x02 (0#38 ++ buf)
  | .qTime => commandWord 0x03 0
  | .evCfg mask => commandWord 0x04 (0#33 ++ mask)
  | .cDecrypt loc key => commandWord 0x10 (0#8 ++ key ++ loc)
  | .cDecryptX loc xorValue startBit rotateAmount =>
    commandWord 0x11 (0#4 ++ rotateAmount ++ 0#4 ++ startBit ++ xorValue ++ loc)
  | .cLookup mode svc idx => commandWord 0x12 (0#19 ++ idx ++ 0#4 ++ svc ++ 0#7 ++ BitVec.ofBool mode)
  | .uClear => commandWord 0x20 0
  | .uLoad i chunk => commandWord 0x21 (0#4 ++ chunk ++ 0#6 ++ i)
  | .uGlue => commandWord 0x22 0
  | .uFlt w => commandWord 0x23 (0#24 ++ w)
  | .uRestart => commandWord 0x24 0
  | .uSetCur c => commandWord 0x25 (0#32 ++ c)
  | .uRead size => commandWord 0x26 (0#35 ++ size)
  | .uLabel => commandWord 0x27 0
  | .tClass3A y => commandWord 0x30 (0#24 ++ y)
  | .tClass8A x y z => commandWord 0x31 (z ++ y ++ 0#3 ++ x)

/-! ### The opcode table's numbering -/

/-- The port word whose `nbits` bits the opcode table numbers: a 64-bit row is a group, an 8-bit row a command with
every operand bit 0 (spec/opcode_table.json `port`, `width`). -/
def tablePortWord (nbits w : Nat) : PortWord :=
  if nbits = 64 then .group (BitVec.ofNat 64 w) else .command ((BitVec.ofNat nbits w).setWidth 48)

/-- The instruction the decoder reads from an opcode-table word. -/
def decodeTableWord (nbits w : Nat) : Option Instr :=
  match decode (tablePortWord nbits w) with
  | .ok i => some i
  | .error _ => none

end Sys2Proof
end

