-- ==== Sys2Proof/Config.lean ====
section
/-! DEFINITION. What an implementation fixes (the parameters of 00_scope.md R8) and the free values of the model.
Every one is an opaque constant: nothing in Lean can evaluate it, so a theorem holds for every value of it
(log 6 and 9). -/

namespace Sys2Proof

/-- The event kind on which a 3A group raises its event (00_scope.md R8 `KIND_3A`, 90_conflicts.md C3). -/
inductive Kind3A where
  | oda
  | aid
deriving DecidableEq, Repr, Inhabited

/-- The well-known application ids (00_scope.md R8). `AID_TMC` is a set of three values. -/
structure AidParams where
  ert : Block
  rtp : Block
  irds : Block
  tmc0 : Block
  tmc1 : Block
  tmc2 : Block
deriving DecidableEq, Repr, Inhabited

/-- The tables of the text filter (00_scope.md R8, 46_host_ops.md R336). -/
structure FilterParams where
  remap24 : Byte
  remap5E : Byte
  remap60 : Byte
  remap7E : Byte
  high : BitVec 7 → Byte
deriving Inhabited

/-- The encryption key tables (00_scope.md R8, 45_cipher.md R316, R317). -/
structure KeyParams where
  flat : BitVec 5 → Block
  svc : BitVec 3 → BitVec 5 → Block
deriving Inhabited

/-- `AID_ERT`, the application id of Enhanced RadioText (00_scope.md R8). -/
opaque Config.aidErt : Block
/-- `AID_RTP`, the application id of RadioText-Plus (00_scope.md R8). -/
opaque Config.aidRtp : Block
/-- `AID_IRDS`, the application id of the In-receiver Database System (00_scope.md R8). -/
opaque Config.aidIrds : Block
/-- The first value of the set `AID_TMC` (00_scope.md R8). -/
opaque Config.aidTmc0 : Block
/-- The second value of the set `AID_TMC` (00_scope.md R8). -/
opaque Config.aidTmc1 : Block
/-- The third value of the set `AID_TMC` (00_scope.md R8). -/
opaque Config.aidTmc2 : Block
/-- `KIND_3A` (00_scope.md R8). -/
opaque Config.kind3A : Kind3A
/-- `FLT_MAGIC`, the pattern of a foreign-location-table word (00_scope.md R8). -/
opaque Config.fltMagic : BitVec 6
/-- `KEYTAB_FLAT` (00_scope.md R8). -/
opaque Config.keytabFlat : BitVec 5 → Block
/-- `KEYTAB_SVC` (00_scope.md R8): 8 rows of 32 keys. -/
opaque Config.keytabSvc : BitVec 3 → BitVec 5 → Block
/-- `HIGH_TABLE` (00_scope.md R8): the text-filter map of the bytes 0x80 to 0xFF. -/
opaque Config.highTable : BitVec 7 → Byte
/-- `REMAP_24` (00_scope.md R8). -/
opaque Config.remap24 : Byte
/-- `REMAP_5E` (00_scope.md R8). -/
opaque Config.remap5E : Byte
/-- `REMAP_60` (00_scope.md R8). -/
opaque Config.remap60 : Byte
/-- `REMAP_7E` (00_scope.md R8). -/
opaque Config.remap7E : Byte
/-- `IsEncAdmin`, the encrypted-group test of the TMC classifier (00_scope.md R8, 43_tmc_classifier.md R264). -/
opaque Config.isEncAdmin : BitVec 5 → Block → Block → Bool

/-- The year a 4A group with MJD below 15079 stores (40_dispatch_basic.md R165): a free value, one for each draw. -/
opaque Config.freeYear : Nat → Int
/-- The month a 4A group with MJD below 15079 stores (R165): a free value, one for each draw. -/
opaque Config.freeMonth : Nat → Int
/-- The day a 4A group with MJD below 15079 stores (R165): a free value, one for each draw. -/
opaque Config.freeDay : Nat → Int

/-- The application ids of this block. -/
def Config.aids : AidParams :=
  { ert := Config.aidErt, rtp := Config.aidRtp, irds := Config.aidIrds,
    tmc0 := Config.aidTmc0, tmc1 := Config.aidTmc1, tmc2 := Config.aidTmc2 }

/-- The text-filter tables of this block. -/
def Config.filter : FilterParams :=
  { remap24 := Config.remap24, remap5E := Config.remap5E, remap60 := Config.remap60,
    remap7E := Config.remap7E, high := Config.highTable }

/-- The key tables of this block. -/
def Config.keys : KeyParams :=
  { flat := Config.keytabFlat, svc := Config.keytabSvc }

end Sys2Proof
end

