-- ==== Sys2Proof/Machine/State.lean ====
section
/-! DEFINITION. The state of the block as plain data (10_state.md R20 to R55), its reset value (70_reset_and_hazards.md
R380 to R383), and the reasons a step can stop. INVENTORY.md lists every field with its rule. -/

namespace Sys2Proof.Machine

/-! ### Byte memories -/

/-- The byte-addressed private memories (20_memory.md R70). -/
inductive Space where
  | ps
  | ptyn
  | rt
  | eonPs
deriving DecidableEq, Repr

/-- A byte memory: (address, byte) pairs. The canonical form is `Memory.wf` of Machine/Ops.lean. -/
abbrev Memory := List Host.Cell

/-! ### Station status -/

/-- The scalar registers of `StationStatus` (10_state.md R22). -/
structure Scalars where
  pi : Block
  tp : Bool
  pty : BitVec 5
  ta : Bool
  ms : Bool
  di : BitVec 4
  pin : Block
  li : Bool
  opc : BitVec 4
  ecc : BitVec 8
  tmcId : BitVec 12
  pagId : BitVec 12
  lang : BitVec 12
deriving DecidableEq, Repr

/-- One application-id slot (10_state.md R27). -/
structure AppIdSlot where
  cig : BitVec 5
  msg : Block
  aid : Block
deriving DecidableEq, Repr

/-- The slots' names in RDSD's order (10_state.md R27): slot 0 IRDS, 1 TMC, 2 RTP, 3 ERT. -/
inductive SlotId where
  | irds
  | tmc
  | rtp
  | ert
deriving DecidableEq, Repr

/-- The four application-id slots (10_state.md R27). -/
structure Slots where
  irds : AppIdSlot
  tmc : AppIdSlot
  rtp : AppIdSlot
  ert : AppIdSlot
deriving DecidableEq, Repr

/-- The other-network record (10_state.md R29). -/
structure EonRecord where
  pi : Block
  tp : Bool
  ta : Bool
  pty : BitVec 5
  ps : Memory
  pin : Block
  li : BitVec 32
deriving DecidableEq, Repr

/-- The time of day (10_state.md R32). Day, month, year, weekday and offset are integers in the spec. -/
structure TimeOfDay where
  minute : BitVec 6
  hour : BitVec 5
  day : Int
  month : Int
  year : Int
  weekday : Int
  tz : Int
deriving DecidableEq, Repr

/-! ### Events -/

/-- The seven event kinds (60_exceptions.md R355). -/
inductive EventKind where
  | af
  | tdc
  | aid
  | oda
  | eon
  | rt
  | tmc
deriving DecidableEq, Repr

/-- An event on the EVT port: its kind and the 4-tuple of 60_exceptions.md R356. -/
structure Event where
  kind : EventKind
  n : BitVec 8
  f : Bool
  w1 : Block
  w2 : Block
deriving DecidableEq, Repr

/-- The part of a GROUP operation still to run after its event (10_state.md R51, 60_exceptions.md R362): nothing,
or the clear, tracker and segment write of a 2A or a 2B group whose toggle flipped. -/
inductive Rest where
  | nothing
  | radiotext4 (tog : Bool) (seg : BitVec 4) (ch0 ch1 ch2 ch3 : Byte)
  | radiotext2 (tog : Bool) (seg : BitVec 4) (ch0 ch1 : Byte)
deriving DecidableEq, Repr

/-- What `H.pending` holds while an event waits for its acknowledgement (10_state.md R51). -/
structure Pending where
  event : Event
  rest : Rest
deriving DecidableEq, Repr

/-! ### The unpacker -/

/-- The container `CONT[0..3]` (10_state.md R40). -/
structure Cont where
  c0 : Slice
  c1 : Slice
  c2 : Slice
  c3 : Slice
deriving DecidableEq, Repr

/-- The cursor `CUR` (10_state.md R41). -/
structure Cursor where
  bitIndex : BitVec 5
  sliceIndex : BitVec 3
deriving DecidableEq, Repr

/-! ### Results of the commands (30_encoding.md R128) -/

/-- A text buffer after the filter (46_host_ops.md R336): the bytes, zero past `len`, and the length. -/
structure FilteredText where
  bytes : List Byte
  len : Nat
deriving DecidableEq, Repr

/-- The other-network record as QSTATUS returns it: `bytes` are the 8 raw bytes of `EON.PS` (46_host_ops.md R332). -/
structure EonView where
  pi : Block
  tp : Bool
  ta : Bool
  pty : BitVec 5
  bytes : List Byte
  pin : Block
  li : BitVec 32
deriving DecidableEq, Repr

/-- The status snapshot (46_host_ops.md R332). -/
structure Snapshot where
  reg : Scalars
  slot : Slots
  eon : EonView
  ps : FilteredText
  ptyn : FilteredText
  rt : FilteredText
deriving DecidableEq, Repr

/-- The fields of class SYS_LOCATION (43_tmc_classifier.md R253). -/
structure LocationRecord where
  ltn : BitVec 6
  afIndicator : Bool
  mode : Bool
  international : Bool
  national : Bool
  regional : Bool
  urban : Bool
deriving DecidableEq, Repr

/-- The fields of class SYS_SERVICE (43_tmc_classifier.md R253). -/
structure ServiceRecord where
  gap : BitVec 2
  serviceId : BitVec 6
  activation : BitVec 2
  window : BitVec 2
  delay : BitVec 2
deriving DecidableEq, Repr

/-- The class of a TMC announcement and its record (43_tmc_classifier.md R252); an unknown variant carries both
records, every field zero (R254). -/
inductive AnnouncementClass where
  | sysLocation (r : LocationRecord)
  | sysService (r : ServiceRecord)
  | sysUnknown (l : LocationRecord) (r : ServiceRecord)
deriving DecidableEq, Repr

/-- The result of T.CLASS3A (43_tmc_classifier.md R252, R253): the raw word, the variant and the class. -/
structure Class3A where
  y : Block
  variant : BitVec 2
  cls : AnnouncementClass
deriving DecidableEq, Repr

/-- The single-group event layout (43_tmc_classifier.md R258, R259). -/
structure TmcEvent where
  direction : Bool
  extent : BitVec 3
  event : BitVec 11
  location : Block
deriving DecidableEq, Repr

/-- The class of a TMC message and its decoded fields (43_tmc_classifier.md R255 to R264). -/
inductive MessageClass where
  | system (variant : BitVec 4)
  | userSingle (e : TmcEvent)
  | encAdmin
  | multiFirst (e : TmcEvent)
  | multiNext (second : Bool) (seq : BitVec 2) (chunk : BitVec 28)
deriving DecidableEq, Repr

/-- The result of T.CLASS8A (43_tmc_classifier.md R255): the class and always the raw operands. -/
structure Class8A where
  x : BitVec 5
  y : Block
  z : Block
  cls : MessageClass
deriving DecidableEq, Repr

/-- What the CMD port answers to a command (30_encoding.md R128, "results out"). -/
inductive Result where
  | none
  | status (s : Snapshot)
  | text (t : FilteredText)
  | time (t : Option TimeOfDay)
  | decrypted (out : Block)
  | key (ok : Bool) (key : Block)
  | flt (isFlt : Bool) (cc : BitVec 4) (ltn : BitVec 6) (out16 : Block)
  | bits (r : Block)
  | label (ok : Bool) (type : BitVec 4) (value : Block)
  | class3A (c : Class3A)
  | class8A (c : Class8A)
deriving DecidableEq, Repr

/-! ### Stops -/

/-- No fault exists: "No operation of the block raises a synchronous exception" (60_exceptions.md R350). -/
inductive Fault where
deriving DecidableEq, Repr

/-- Why a request is refused. `refuse` of the spec is no behaviour of the hardware: the request has no defined
meaning (00_scope.md R13, 60_exceptions.md R353). Every one is safe: the model stops where the spec gives nothing. -/
inductive Refusal where
  /-- An instruction that has no meaning in this model yet: raised by `exec` alone; safe. -/
  | notModelled (mnemonic : String)
  /-- The decoder turned the command word down: raised by `step` (60_exceptions.md R353); safe. -/
  | undecodable (e : DecodeError)
  /-- QTEXT with `buf` 3 (46_host_ops.md R336): raised by `execQText`; safe. -/
  | badTextSelector
  /-- U.READ with a size of 0 or above 16 (44_bit_unpacker.md R284): raised by `execURead`; safe. -/
  | badReadSize
  /-- U.SETCUR with an illegal cursor word (44_bit_unpacker.md R282): raised by `execUSetCur`; safe. -/
  | badCursorWord
  /-- A read at a cursor value 10_state.md R42 calls illegal, which no operation produces: raised by `execURead` and
  `execULabel`; safe. -/
  | illegalCursor
  /-- GROUP, RESET or EVCFG while an event waits for its acknowledgement (60_exceptions.md R361): raised by every
  meaning of those; safe. -/
  | eventPending
  /-- An acknowledgement when nothing is pending (60_exceptions.md R361): raised by `acknowledge`; safe. -/
  | ackWithoutEvent
deriving DecidableEq, Repr

/-! ### The state -/

/-- The state of the block: every piece of state 10_state.md gives it and nothing else. It holds no request, no next
operation, no queue and no counter (R45, R54, R55). -/
structure BlockState where
  reg : Scalars
  ps : Memory
  ptyn : Memory
  rt : Memory
  slot : Slots
  eon : EonRecord
  timeAvailable : Bool
  time : TimeOfDay
  rtToggle : Bool
  ptynToggle : Bool
  pending : Option Pending
  even : BitVec 7
  cont : Cont
  cur : Cursor
deriving DecidableEq, Repr

/-- What surrounds the block in a run, and is no state of it (10_state.md R55): the answer on the CMD port (log 5), the
operations and acknowledgements the host will present (log 1), and the number of free values drawn so far (log 6). -/
structure HostSide where
  result : Result
  inbox : List Request
  draws : Nat
deriving DecidableEq, Repr

/-- The state of a run: the block's, and the host's side beside it, since a step of the host's interface is a function
of one state (Host/Core.lean). `transition` of Machine/Serve.lean is the step relation on `BlockState` alone. -/
structure State extends BlockState, HostSide where
deriving DecidableEq, Repr

/-- Every scalar register 0 (70_reset_and_hazards.md R381). -/
def Scalars.zero : Scalars :=
  { pi := 0, tp := false, pty := 0, ta := false, ms := false, di := 0, pin := 0, li := false, opc := 0, ecc := 0,
    tmcId := 0, pagId := 0, lang := 0 }

/-- A slot of zeros (70_reset_and_hazards.md R381). -/
def AppIdSlot.zero : AppIdSlot := { cig := 0, msg := 0, aid := 0 }

/-- Four slots of zeros (70_reset_and_hazards.md R381). -/
def Slots.zero : Slots :=
  { irds := AppIdSlot.zero, tmc := AppIdSlot.zero, rtp := AppIdSlot.zero, ert := AppIdSlot.zero }

/-- The other-network record after reset (10_state.md R29, R30); its PS buffer lists nothing, so every byte reads
as the reset byte of `Space.eonPs`. -/
def EonRecord.zero : EonRecord :=
  { pi := 0, tp := false, ta := false, pty := 0, ps := [], pin := 0, li := 0 }

/-- The time fields at power-on: the spec leaves them unspecified, the model names 0 (DESIGN CHOICE, log 7). -/
def TimeOfDay.zero : TimeOfDay :=
  { minute := 0, hour := 0, day := 0, month := 0, year := 0, weekday := 0, tz := 0 }

/-- Four slices of zeros (10_state.md R40). -/
def Cont.zero : Cont := { c0 := 0, c1 := 0, c2 := 0, c3 := 0 }

/-- The fresh cursor (10_state.md R41, R42). -/
def Cursor.fresh : Cursor := { bitIndex := 0, sliceIndex := 0 }

/-- The block at power-on (70_reset_and_hazards.md R380 to R382; log 7, 16). -/
def BlockState.powerOn : BlockState :=
  { reg := Scalars.zero, ps := [], ptyn := [], rt := [], slot := Slots.zero, eon := EonRecord.zero,
    timeAvailable := false, time := TimeOfDay.zero, rtToggle := false, ptynToggle := false, pending := none,
    even := 0, cont := Cont.zero, cur := Cursor.fresh }

/-- Nothing answered, nothing presented, nothing drawn (log 16). -/
def HostSide.silent : HostSide := { result := .none, inbox := [], draws := 0 }

/-- The machine at power-on: the block idle, with no request of the host. -/
def State.reset : State := { toBlockState := BlockState.powerOn, toHostSide := HostSide.silent }

end Sys2Proof.Machine
end

