-- ==== Sys2Proof/Machine/Operands.lean ====
section
/-! DEFINITION. The operand forms of every operation: fields of operand words, and every value the spec computes from
operands and parameters alone. -/

namespace Sys2Proof.Machine

/-! ### The domain of the operands (60_exceptions.md R353) -/

/-- The read sizes of U.READ (44_bit_unpacker.md R284): 1 to 16. -/
def legalReadSize (size : Nat) : Bool := decide (1 ≤ size ∧ size ≤ 16)

/-- `Legal(b, s)` of 44_bit_unpacker.md R282: `s = 0` and `b = 0`, or `1 <= s <= 4`, or `s = 6` and `b = 0`. -/
def legalCursor (c : Cursor) : Bool :=
  decide ((c.sliceIndex.toNat = 0 ∧ c.bitIndex.toNat = 0) ∨ (1 ≤ c.sliceIndex.toNat ∧ c.sliceIndex.toNat ≤ 4) ∨
    (c.sliceIndex.toNat = 6 ∧ c.bitIndex.toNat = 0))

/-- The cursor of a cursor word (30_encoding.md R127): `c[7:3]` bitIndex, `c[2:0]` sliceIndex. -/
def cursorOfWord (c : BitVec 8) : Cursor := { bitIndex := c.extractLsb' 3 5, sliceIndex := c.extractLsb' 0 3 }

/-- The buffer a QTEXT selector names (46_host_ops.md R336): 0 PS, 1 PTYN, 2 RT; 3 is refused. -/
def textSelector (buf : BitVec 2) : Option Space :=
  match buf.toNat with
  | 0 => some .ps
  | 1 => some .ptyn
  | 2 => some .rt
  | _ => none

/-! ### Group operands -/

/-- The slow-label variant 0 fields (30_encoding.md R105): paging operator code `C[11:8]`. -/
def slowOpc (payload : BitVec 12) : BitVec 4 := payload.extractLsb' 8 4

/-- The slow-label variant 0 fields (30_encoding.md R105): extended country code `C[7:0]`. -/
def slowEcc (payload : BitVec 12) : BitVec 8 := payload.extractLsb' 0 8

/-- `V = g.C ‖ g.D` of a 4A group (30_encoding.md R110), from the fields it carries. -/
def ctPayload (mjd : BitVec 17) (hour : BitVec 5) (minute : BitVec 6) (tzSign : Bool) (tzMag : BitVec 5) : BitVec 32 :=
  mjd.extractLsb' 0 15 ++ hour ++ minute ++ BitVec.ofBool tzSign ++ tzMag

/-- The time-zone offset in minutes, sign and magnitude in steps of 30 (30_encoding.md R115 (c)). -/
def tzMinutes (tzSign : Bool) (tzMag : BitVec 5) : Int :=
  if tzSign then -(30 * (tzMag.toNat : Int)) else 30 * (tzMag.toNat : Int)

/-- The weekday of a Modified Julian Day (40_dispatch_basic.md R167): 1 is Monday. -/
def weekdayOfMjd (mjd : Nat) : Nat := (mjd + 2) % 7 + 1

/-- `yp` of 40_dispatch_basic.md R162. -/
def dateYp (mjd : Nat) : Nat := ((mjd * 10 - 150782) * 10) / 36525

/-- `ys` of 40_dispatch_basic.md R162. -/
def dateYs (mjd : Nat) : Nat := (dateYp mjd * 36525) / 100

/-- `mp` of 40_dispatch_basic.md R162. -/
def dateMp (mjd : Nat) : Nat := ((mjd * 10 - 149561 - dateYs mjd * 10) * 1000) / 306001

/-- `k` of 40_dispatch_basic.md R162. -/
def dateK (mjd : Nat) : Nat := if dateMp mjd = 14 ∨ dateMp mjd = 15 then 1 else 0

/-- The year of 40_dispatch_basic.md R162, for `MJD >= 15079` (R164). -/
def yearOfMjd (mjd : Nat) : Nat := 1900 + dateYp mjd + dateK mjd

/-- The month of 40_dispatch_basic.md R162, for `MJD >= 15079` (R164). -/
def monthOfMjd (mjd : Nat) : Nat := dateMp mjd - 1 - 12 * dateK mjd

/-- The day of 40_dispatch_basic.md R162, for `MJD >= 15079` (R164). -/
def dayOfMjd (mjd : Nat) : Nat := mjd - 14956 - dateYs mjd - (dateMp mjd * 306001) / 10000

/-- The first Modified Julian Day the date formula is defined for (40_dispatch_basic.md R164, R165). -/
def firstDatedMjd : Nat := 15079

/-- `SlotOf(aid, cig)` (42_oda_eon.md R210, R211): the first line that matches. -/
def slotOf (p : AidParams) (aid : Block) (cig : BitVec 5) : Option SlotId :=
  if aid = p.ert then some .ert
  else if aid = p.rtp then some .rtp
  else if aid = p.irds then some .irds
  else if aid = p.tmc0 ∨ aid = p.tmc1 ∨ aid = p.tmc2 then some .tmc
  else if aid = 0 ∧ cig = 16 then some .tmc
  else none

/-- The event kind of a 3A group (42_oda_eon.md R212). -/
def announcementKind : Kind3A → EventKind
  | .oda => .oda
  | .aid => .aid

/-- The first event parameter of a 14A frequency variant (42_oda_eon.md R239): 1 AF pair, 2 mapped FM, 3 mapped AM;
no other variant raises an event (R236). -/
def eonEventParam (var : BitVec 4) : Option (BitVec 8) :=
  match var.toNat with
  | 4 => some 1
  | 5 => some 2
  | 6 => some 2
  | 7 => some 2
  | 8 => some 2
  | 9 => some 3
  | _ => none

/-! ### The text filter (46_host_ops.md R336, R337) -/

/-- `Map(c)` of 46_host_ops.md R336. -/
def mapChar (p : FilterParams) (c : Byte) : Byte :=
  if c = 0x24 then p.remap24
  else if c = 0x5E then p.remap5E
  else if c = 0x60 then p.remap60
  else if c = 0x7E then p.remap7E
  else if 0x80 ≤ c.toNat then p.high (c.extractLsb' 0 7)
  else if c = 0x0A ∨ c = 0x0B ∨ c = 0x1F then c
  else if c.toNat < 0x20 then 0x3F
  else if c = 0x7F then 0x3F
  else c

/-- The number of bytes before the first carriage return (46_host_ops.md R336). -/
def textLength (bs : List Byte) : Nat := (bs.takeWhile (fun c => c != 0x0D)).length

/-- `Filter(B, n)` of 46_host_ops.md R336: mapped bytes up to the first carriage return, zeros past it. -/
def filterText (p : FilterParams) (bs : List Byte) : FilteredText :=
  { bytes := (bs.take (textLength bs)).map (mapChar p) ++ List.replicate (bs.length - textLength bs) 0,
    len := textLength bs }

/-! ### Cipher operands (45_cipher.md) -/

/-- `rotl16` of 00_scope.md R10: the identity for 0. -/
def rotl16 (x : Block) (r : Nat) : Block := if r = 0 then x else (x <<< r) ||| (x >>> (16 - r))

/-- The mask `m` of 45_cipher.md R311: bits shifted past bit 15 are lost. -/
def cipherMask (xorValue : BitVec 8) (startBit : BitVec 4) : Block := (xorValue.setWidth 16) <<< startBit.toNat

/-- `DECRYPTX` of 45_cipher.md R311. -/
def decryptX (loc : Block) (xorValue : BitVec 8) (startBit rotateAmount : BitVec 4) : Block :=
  rotl16 (cipherMask xorValue startBit ^^^ loc) rotateAmount.toNat

/-- Key field `xorValue = key[15:8]` (30_encoding.md R123). -/
def keyXorValue (key : Block) : BitVec 8 := key.extractLsb' 8 8

/-- Key field `startBit = key[7:4]` (30_encoding.md R123). -/
def keyStartBit (key : Block) : BitVec 4 := key.extractLsb' 4 4

/-- Key field `rotateAmount = key[3:0]` (30_encoding.md R123). -/
def keyRotateAmount (key : Block) : BitVec 4 := key.extractLsb' 0 4

/-- C.LOOKUP's table access (45_cipher.md R316, R318): flat, by service key, or no row. -/
def lookupKey (p : KeyParams) (mode : Bool) (svc : BitVec 4) (idx : BitVec 5) : Bool × Block :=
  if mode = false then (true, p.flat idx)
  else if svc.toNat ≤ 7 then (true, p.svc (svc.extractLsb' 0 3) idx)
  else (false, 0)

/-! ### Unpacker operands (44_bit_unpacker.md) -/

/-- `width(type)` of 30_encoding.md R124; type 15 has none and ends the stream. -/
def labelWidth (type : BitVec 4) : Option Nat :=
  match type.toNat with
  | 0 => some 3
  | 1 => some 3
  | 2 => some 5
  | 3 => some 5
  | 4 => some 5
  | 5 => some 8
  | 6 => some 8
  | 7 => some 8
  | 8 => some 8
  | 9 => some 11
  | 10 => some 16
  | 11 => some 16
  | 12 => some 16
  | 13 => some 16
  | 14 => some 0
  | _ => none

/-- FLT word field `cc = w[9:6]` (30_encoding.md R126). -/
def fltCountry (w : Block) : BitVec 4 := w.extractLsb' 6 4

/-- FLT word field `ltn = w[5:0]` (30_encoding.md R126). -/
def fltTable (w : Block) : BitVec 6 := w.extractLsb' 0 6

/-- A chunk widened to a slice: bits 31:28 become 0 (44_bit_unpacker.md R276). -/
def rawSlice (chunk : BitVec 28) : Slice := chunk.setWidth 32

/-! ### The TMC classifier (43_tmc_classifier.md) -/

/-- The SYS_LOCATION fields of `Y` (43_tmc_classifier.md R253). -/
def locationRecord (y : Block) : LocationRecord :=
  { ltn := y.extractLsb' 6 6, afIndicator := y.getLsbD 5, mode := y.getLsbD 4, international := y.getLsbD 3,
    national := y.getLsbD 2, regional := y.getLsbD 1, urban := y.getLsbD 0 }

/-- The SYS_SERVICE fields of `Y` (43_tmc_classifier.md R253). -/
def serviceRecord (y : Block) : ServiceRecord :=
  { gap := y.extractLsb' 12 2, serviceId := y.extractLsb' 6 6, activation := y.extractLsb' 4 2,
    window := y.extractLsb' 2 2, delay := y.extractLsb' 0 2 }

/-- T.CLASS3A (43_tmc_classifier.md R252 to R254). -/
def classify3A (y : Block) : Class3A :=
  { y := y, variant := y.extractLsb' 14 2,
    cls :=
      match (y.extractLsb' 14 2).toNat with
      | 0 => .sysLocation (locationRecord y)
      | 1 => .sysService (serviceRecord y)
      | _ => .sysUnknown (locationRecord 0) (serviceRecord 0) }

/-- The single-group event layout (43_tmc_classifier.md R258). -/
def tmcEvent (y z : Block) : TmcEvent :=
  { direction := y.getLsbD 14, extent := y.extractLsb' 11 3, event := y.extractLsb' 0 11, location := z }

/-- The payload chunk `Y[11:0] ‖ Z[15:0]` (43_tmc_classifier.md R260, R262). -/
def payloadChunk (y z : Block) : BitVec 28 := y.extractLsb' 0 12 ++ z

/-- T.CLASS8A (43_tmc_classifier.md R255 to R264), with the encrypted-group test as an argument. -/
def classify8A (isEncAdmin : BitVec 5 → Block → Block → Bool) (x : BitVec 5) (y z : Block) : Class8A :=
  { x := x, y := y, z := z,
    cls :=
      if x.getLsbD 4 then .system (x.extractLsb' 0 4)
      else if x.getLsbD 3 then .userSingle (tmcEvent y z)
      else if isEncAdmin x y z then .encAdmin
      else if y.getLsbD 15 then .multiFirst (tmcEvent y z)
      else .multiNext (y.getLsbD 14) (y.extractLsb' 12 2) (payloadChunk y z) }

end Sys2Proof.Machine
end

