-- ==== Sys2Proof/Machine/Flags.lean ====
section
/-! DEFINITION. The block has no condition codes (10_state.md R35). Here stand the one-bit registers' computations,
the comparators and the conditions an operation branches on. -/

namespace Sys2Proof.Machine

/-- `S.DI[3 - seg] <- di`, the other three bits unchanged (40_dispatch_basic.md R144, 30_encoding.md R115 (e)). -/
def setDi (old : BitVec 4) (seg : BitVec 2) (di : Bool) : BitVec 4 :=
  (old &&& ~~~(1#4 <<< (3 - seg.toNat))) ||| ((BitVec.ofBool di).setWidth 4 <<< (3 - seg.toNat))

/-- The comparator's answer (41_text_reassembly.md R182): the toggle differs from the tracker. -/
def flips (tracker tog : Bool) : Bool := tog != tracker

/-- The bit number of an event kind in `EVEN` (60_exceptions.md R355). -/
def kindId : EventKind → Nat
  | .af => 0
  | .tdc => 1
  | .aid => 2
  | .oda => 3
  | .eon => 4
  | .rt => 5
  | .tmc => 6

/-- `EVEN[id(K)] = 1` (60_exceptions.md R358, 10_state.md R52). -/
def eventEnabled (even : BitVec 7) (k : EventKind) : Bool := even.getLsbD (kindId k)

/-- The cursor condition EOF (10_state.md R35, R42): only `sliceIndex` is tested (44_bit_unpacker.md R287). -/
def atEof (c : Cursor) : Bool := c.sliceIndex == 6

/-- The cursor value every end of stream leaves (44_bit_unpacker.md R285 to R287, R290). -/
def eofCursor : Cursor := { bitIndex := 0, sliceIndex := 6 }

/-- `w[15:10] = FLT_MAGIC` (44_bit_unpacker.md R296, R298). -/
def matchesFlt (magic : BitVec 6) (w : Block) : Bool := w.extractLsb' 10 6 == magic

/-- The duration-is-zero condition (44_bit_unpacker.md R290): type 0 with value 0. -/
def endsStream (type : BitVec 4) (value : Block) : Bool := type == 0 && value == 0

end Sys2Proof.Machine
end

