-- ==== Sys2Proof/Machine/Ops.lean ====
section
/-! DEFINITION. The named operations the meanings share: byte memories and segment writes, registers, the event
interface (raising an event, and the return from it), the container and its reader. -/

namespace Sys2Proof.Machine

/-! ### Byte memories (20_memory.md R70 to R79) -/

/-- The size of a byte space (20_memory.md R70). -/
def spaceSize : Space → Nat
  | .ps => 8
  | .ptyn => 8
  | .rt => 64
  | .eonPs => 8

/-- What an address that is not listed reads as: the reset contents, spaces in the three text buffers (10_state.md
R26) and zeros in `EON.PS` (R30). -/
def blankByte : Space → Byte
  | .ps => 0x20
  | .ptyn => 0x20
  | .rt => 0x20
  | .eonPs => 0x00

/-- `MemRead(space, a, 1)` (00_scope.md R12). -/
def Memory.read (sp : Space) : Memory → Nat → Byte
  | [], _ => blankByte sp
  | (a', b) :: m, a => if a' = a then b else Memory.read sp m a

/-- List byte `b` at address `a`, keeping the addresses rising. -/
def Memory.put (a : Nat) (b : Byte) : Memory → Memory
  | [] => [(a, b)]
  | (a', b') :: m =>
    if a < a' then (a, b) :: (a', b') :: m
    else if a = a' then (a, b) :: m
    else (a', b') :: Memory.put a b m

/-- List nothing at address `a`. -/
def Memory.drop (a : Nat) (m : Memory) : Memory := m.filter (fun c => c.1 != a)

/-- `MemWrite(space, a, 1, b)` (00_scope.md R12), keeping the canonical form: a byte equal to what an unlisted
address reads as is not listed. -/
def Memory.write (sp : Space) (a : Nat) (b : Byte) (m : Memory) : Memory :=
  if b = blankByte sp then Memory.drop a m else Memory.put a b m

/-- The canonical form of a byte memory: addresses strictly rising, inside the space (20_memory.md R72), and no entry
equal to what an unlisted address reads as. -/
abbrev Memory.wf (sp : Space) (m : Memory) : Prop :=
  List.Pairwise (fun c d : Host.Cell => c.1 < d.1) m ∧ ∀ c ∈ m, c.1 < spaceSize sp ∧ c.2 ≠ blankByte sp

/-- Write bytes at rising addresses from `a`. -/
def Memory.writeBytes (sp : Space) : Nat → List Byte → Memory → Memory
  | _, [], m => m
  | a, b :: bs, m => Memory.writeBytes sp (a + 1) bs (Memory.write sp a b m)

/-- `SegWrite(buf, n, seg, bytes)` of 41_text_reassembly.md R180, with `n` the number of bytes: byte `i` goes to offset
`n * seg + i`. -/
def segWrite (sp : Space) (seg : Nat) (bytes : List Byte) (m : Memory) : Memory :=
  Memory.writeBytes sp (bytes.length * seg) bytes m

/-- A buffer with every byte at its reset value (41_text_reassembly.md R184 for the text buffers, 10_state.md R30 for
`EON.PS`). -/
def clearedBuffer : Memory := []

/-- The bytes of a space in rising order. -/
def Memory.bytes (sp : Space) (m : Memory) : List Byte := (List.range (spaceSize sp)).map (Memory.read sp m)

/-- The memory of a byte space. -/
def State.buffer (s : State) : Space → Memory
  | .ps => s.ps
  | .ptyn => s.ptyn
  | .rt => s.rt
  | .eonPs => s.eon.ps

/-- The byte at address `a` of a byte space. -/
def State.byteAt (s : State) (sp : Space) (a : Nat) : Byte := Memory.read sp (s.buffer sp) a

/-! ### Registers -/

/-- The update every group performs first (40_dispatch_basic.md R140). -/
def commonUpdate (h : Head) (s : State) : State :=
  { s with reg := { s.reg with pi := h.pi, tp := h.tp, pty := h.pty } }

/-- The flags of format BASIC (40_dispatch_basic.md R144 to R146): TA, MS and one bit of DI. -/
def basicUpdate (b : Basic) (s : State) : State :=
  { s with reg := { s.reg with ta := b.ta, ms := b.ms, di := setDi s.reg.di b.seg b.di } }

/-- Two characters of the program-service name (40_dispatch_basic.md R144, R145). -/
def psWrite (seg : BitVec 2) (ch0 ch1 : Byte) (s : State) : State :=
  { s with ps := segWrite .ps seg.toNat [ch0, ch1] s.ps }

/-- 1B's update (40_dispatch_basic.md R150 to R152): the program item number. -/
def pinUpdate (pin : Block) (s : State) : State := { s with reg := { s.reg with pin := pin } }

/-- 1A's own update (40_dispatch_basic.md R150): the linkage actuator and the slow-label variant. -/
def slowUpdate (la : Bool) (var : BitVec 3) (payload : BitVec 12) (s : State) : State :=
  match var.toNat with
  | 0 => { s with reg := { s.reg with li := la, opc := slowOpc payload, ecc := slowEcc payload } }
  | 1 => { s with reg := { s.reg with li := la, tmcId := payload } }
  | 2 => { s with reg := { s.reg with li := la, pagId := payload } }
  | 3 => { s with reg := { s.reg with li := la, lang := payload } }
  | _ => { s with reg := { s.reg with li := la } }

/-- The clock time of a 4A group with a non-zero payload (40_dispatch_basic.md R160, R162, R167, R168). For MJD below
15079 year, month and day are free values, one draw for the group (R165, log 6). -/
def clockUpdate (mjd : BitVec 17) (hour : BitVec 5) (minute : BitVec 6) (tzSign : Bool) (tzMag : BitVec 5)
    (s : State) : State :=
  if firstDatedMjd ≤ mjd.toNat then
    { s with
      timeAvailable := true,
      time :=
        { minute := minute, hour := hour, day := (dayOfMjd mjd.toNat : Int), month := (monthOfMjd mjd.toNat : Int),
          year := (yearOfMjd mjd.toNat : Int), weekday := (weekdayOfMjd mjd.toNat : Int),
          tz := tzMinutes tzSign tzMag } }
  else
    { s with
      timeAvailable := true,
      time :=
        { minute := minute, hour := hour, day := Config.freeDay s.draws, month := Config.freeMonth s.draws,
          year := Config.freeYear s.draws, weekday := (weekdayOfMjd mjd.toNat : Int),
          tz := tzMinutes tzSign tzMag },
      draws := s.draws + 1 }

/-- The slot a name selects (10_state.md R27). -/
def getSlot (sl : Slots) : SlotId → AppIdSlot
  | .irds => sl.irds
  | .tmc => sl.tmc
  | .rtp => sl.rtp
  | .ert => sl.ert

/-- Overwrite one whole slot, the three others untouched (10_state.md R28). -/
def setSlot (sl : Slots) (k : SlotId) (v : AppIdSlot) : Slots :=
  match k with
  | .irds => { sl with irds := v }
  | .tmc => { sl with tmc := v }
  | .rtp => { sl with rtp := v }
  | .ert => { sl with ert := v }

/-- The slot write of a 3A group, if its AID selects one (42_oda_eon.md R212). -/
def slotUpdate (cig : BitVec 5) (msg aid : Block) (s : State) : State :=
  match slotOf Config.aids aid cig with
  | some k => { s with slot := setSlot s.slot k { cig := cig, msg := msg, aid := aid } }
  | none => s

/-- The 14B update shared with 14A (42_oda_eon.md R235). -/
def eonCommon (tpon : Bool) (pion : Block) (s : State) : State :=
  { s with eon := { s.eon with tp := tpon, pi := pion } }

/-- The variant-specific writes of a 14A group (42_oda_eon.md R236, R238, R240, R241). -/
def eonVariantUpdate (var : BitVec 4) (payload pion : Block) (s : State) : State :=
  match var.toNat with
  | 0 | 1 | 2 | 3 =>
    { s with eon := { s.eon with
        ps := segWrite .eonPs var.toNat [payload.extractLsb' 8 8, payload.extractLsb' 0 8] s.eon.ps } }
  | 12 => { s with eon := { s.eon with li := payload ++ pion } }
  | 13 => { s with eon := { s.eon with pty := payload.extractLsb' 11 5, ta := payload.getLsbD 0 } }
  | _ => s

/-! ### Radiotext and program-type name -/

/-- The part of a 2A or 2B group behind the event point (41_text_reassembly.md R185, R186): clear on a flip, tracker,
segment write. -/
def radiotextWrite (flip tog : Bool) (seg : BitVec 4) (chars : List Byte) (s : State) : State :=
  { s with
    rt := segWrite .rt seg.toNat chars (if flip then clearedBuffer else s.rt),
    rtToggle := tog }

/-- The type-specific part of a 10A group (41_text_reassembly.md R192). -/
def typeNameWrite (tog : Bool) (seg : BitVec 1) (chars : List Byte) (s : State) : State :=
  { s with
    ptyn := segWrite .ptyn seg.toNat chars (if flips s.ptynToggle tog then clearedBuffer else s.ptyn),
    ptynToggle := tog }

/-! ### The event interface (60_exceptions.md) -/

/-- Run the part of a GROUP operation that stands behind its event point (60_exceptions.md R360, R362). The clear of a
suspended 2A or 2B is part of it: only a flip raises the event. -/
def runRest : Rest → State → State
  | .nothing, s => s
  | .radiotext4 tog seg ch0 ch1 ch2 ch3, s => radiotextWrite true tog seg [ch0, ch1, ch2, ch3] s
  | .radiotext2 tog seg ch0 ch1, s => radiotextWrite true tog seg [ch0, ch1] s

/-- `emit K(n, f, w1, w2)` with the rest of the operation behind it (60_exceptions.md R358, R360). An enabled kind
presents the tuple and suspends the operation; a disabled one is dropped and the operation goes on. -/
def emit (k : EventKind) (n : BitVec 8) (f : Bool) (w1 w2 : Block) (rest : Rest) (s : State) : State :=
  if eventEnabled s.even k then
    { s with pending := some { event := { kind := k, n := n, f := f, w1 := w1, w2 := w2 }, rest := rest } }
  else runRest rest s

/-- The acknowledgement (60_exceptions.md R360, R363): `valid` drops and the rest of the operation runs. With nothing
pending it is refused (R361). -/
def acknowledge (s : State) : Host.Outcome State Fault Refusal :=
  match s.pending with
  | some p => .next (runRest p.rest { s with pending := none })
  | none => .refused .ackWithoutEvent

/-- GROUP, RESET and EVCFG are accepted only while no event waits for its acknowledgement (60_exceptions.md R361). -/
def whenIdle (f : State → State) (s : State) : Host.Outcome State Fault Refusal :=
  match s.pending with
  | some _ => .refused .eventPending
  | none => .next (f s)

/-- A carrier event of an A-version group (42_oda_eon.md R220, R228): block C goes into the tuple. -/
def carrierA (k : EventKind) (h : Head) (sub : BitVec 5) (c d : Block) (s : State) : State :=
  emit k (sub.setWidth 8) true c d .nothing (commonUpdate h s)

/-- A carrier event of a B-version group (42_oda_eon.md R220, R228): block C is zeroed. -/
def carrierB (k : EventKind) (h : Head) (sub : BitVec 5) (d : Block) (s : State) : State :=
  emit k (sub.setWidth 8) false 0 d .nothing (commonUpdate h s)

/-! ### The CMD port -/

/-- Answer a command (30_encoding.md R128; log 5). -/
def answer (r : Result) (s : State) : State := { s with result := r }

/-- One text buffer through the filter (46_host_ops.md R332, R336). -/
def filteredBuffer (s : State) (sp : Space) : FilteredText :=
  filterText Config.filter (Memory.bytes sp (s.buffer sp))

/-- The snapshot of QSTATUS (46_host_ops.md R332). -/
def snapshot (s : State) : Snapshot :=
  { reg := s.reg, slot := s.slot,
    eon :=
      { pi := s.eon.pi, tp := s.eon.tp, ta := s.eon.ta, pty := s.eon.pty, bytes := Memory.bytes .eonPs s.eon.ps,
        pin := s.eon.pin, li := s.eon.li },
    ps := filteredBuffer s .ps, ptyn := filteredBuffer s .ptyn, rt := filteredBuffer s .rt }

/-- What RESET writes (46_host_ops.md R330, 70_reset_and_hazards.md R381 to R383). -/
def stationReset (s : State) : State :=
  { s with
    reg := Scalars.zero, ps := clearedBuffer, ptyn := clearedBuffer, rt := clearedBuffer, slot := Slots.zero,
    eon := EonRecord.zero, timeAvailable := false, rtToggle := false, ptynToggle := false }

/-! ### The container (44_bit_unpacker.md) -/

/-- `CONT[i]` (10_state.md R40). -/
def contSlice (c : Cont) (i : Nat) : Slice :=
  match i with
  | 0 => c.c0
  | 1 => c.c1
  | 2 => c.c2
  | _ => c.c3

/-- `CONT[i] <- v` (44_bit_unpacker.md R276). -/
def contSet (c : Cont) (i : BitVec 2) (v : Slice) : Cont :=
  match i.toNat with
  | 0 => { c with c0 := v }
  | 1 => { c with c1 := v }
  | 2 => { c with c2 := v }
  | _ => { c with c3 := v }

/-- The container as one MSB-first stream (20_memory.md R75). -/
def contStream (c : Cont) : BitVec 128 := c.c0 ++ c.c1 ++ c.c2 ++ c.c3

/-- `CONT[i] <- s[127-32*i : 96-32*i]` (44_bit_unpacker.md R278, R296). -/
def contOfStream (s : BitVec 128) : Cont :=
  { c0 := s.extractLsb' 96 32, c1 := s.extractLsb' 64 32, c2 := s.extractLsb' 32 32, c3 := s.extractLsb' 0 32 }

/-- The significant bits 27:0 of a raw slice (30_encoding.md R125). -/
def sliceChunk (v : Slice) : BitVec 28 := v.extractLsb' 0 28

/-- The glue step (44_bit_unpacker.md R278). -/
def glued (c : Cont) : Cont :=
  contOfStream (sliceChunk c.c0 ++ sliceChunk c.c1 ++ sliceChunk c.c2 ++ sliceChunk c.c3 ++ 0#16)

/-- The FLT shift: the 128-bit stream left by 16, zeros entering (44_bit_unpacker.md R296). -/
def fltShifted (c : Cont) : Cont := contOfStream (contStream c <<< 16)

/-! ### The reader (44_bit_unpacker.md R283 to R293) -/

/-- The cursor values a read accepts: the legal ones, and EOF by `sliceIndex` alone (10_state.md R42). -/
def readable (c : Cursor) : Bool := legalCursor c || atEof c

/-- The fresh cursor normalised on first use (44_bit_unpacker.md R283). -/
def normalised (c : Cursor) : Cursor :=
  if c.sliceIndex = 0 ∧ c.bitIndex = 0 then { bitIndex := 31, sliceIndex := 1 } else c

/-- `Advance()` of 44_bit_unpacker.md R284, R285: the first bit of the next slice, or EOF after the fourth. -/
def advanced (sliceIndex : BitVec 3) : Cursor :=
  if sliceIndex = 4 then eofCursor else { bitIndex := 31, sliceIndex := sliceIndex + 1 }

/-- `Read(size)` of 44_bit_unpacker.md R284 at a readable cursor: the left-aligned word and the cursor after. -/
def readField (cont : Cont) (cur : Cursor) (size : Nat) : Block × Cursor :=
  let c := normalised cur
  let bi := c.bitIndex.toNat
  let si := c.sliceIndex
  let av := bi + 1
  if atEof c then (0, c)
  else if size ≤ av then
    (((contSlice cont (si.toNat - 1)).extractLsb' (bi + 1 - size) size).setWidth 16 <<< (16 - size),
      if size = av then advanced si else { bitIndex := BitVec.ofNat 5 (bi - size), sliceIndex := si })
  else
    let hi := ((contSlice cont (si.toNat - 1)).extractLsb' 0 av).setWidth 16
    let rem := size - av
    if si = 4 then ((hi <<< rem) <<< (16 - size), eofCursor)
    else
      let lo := ((contSlice cont si.toNat).extractLsb' (32 - rem) rem).setWidth 16
      (((hi <<< rem) ||| lo) <<< (16 - size), { bitIndex := BitVec.ofNat 5 (31 - rem), sliceIndex := si + 1 })

/-- The right-aligned number of `w` bits a label read takes; nothing is read for width 0 (44_bit_unpacker.md R290). -/
def readNumber (cont : Cont) (cur : Cursor) (w : Nat) : Block × Cursor :=
  if w = 0 then (0, cur) else ((readField cont cur w).1 >>> (16 - w), (readField cont cur w).2)

/-- U.LABEL's reads (44_bit_unpacker.md R290): type, value and the cursor after. -/
def readLabel (cont : Cont) (cur : Cursor) : BitVec 4 × Block × Cursor :=
  let t := (readNumber cont cur 4).1.setWidth 4
  match labelWidth t with
  | none => (t, 0, eofCursor)
  | some w =>
    let v := readNumber cont (readNumber cont cur 4).2 w
    (t, v.1, if endsStream t v.1 then eofCursor else v.2)

end Sys2Proof.Machine
end

