-- ==== Sys2Proof/Machine/Basic.lean ====
section
/-! DEFINITION. The basic group types: 0A, 0B, 15B, 1A, 1B, 4A and the no-op types 7A, 9A, 13A, 15A (40_dispatch_basic.md). -/

namespace Sys2Proof.Machine

/-- GROUP.0A (40_dispatch_basic.md R144): tuning flags, two PS characters, then the AF event. -/
def execGroup0A (h : Head) (b : Basic) (afpair : Block) (ch0 ch1 : Byte) (s : State) : Host.Outcome State Fault Refusal :=
  whenIdle
    (fun s => emit .af 0 true afpair 0 .nothing (psWrite b.seg ch0 ch1 (basicUpdate b (commonUpdate h s)))) s

/-- GROUP.0B (40_dispatch_basic.md R145): tuning flags and two PS characters; no event. -/
def execGroup0B (h : Head) (b : Basic) (ch0 ch1 : Byte) (s : State) : Host.Outcome State Fault Refusal :=
  whenIdle (fun s => psWrite b.seg ch0 ch1 (basicUpdate b (commonUpdate h s))) s

/-- GROUP.15B (40_dispatch_basic.md R146): tuning flags; no text, no event. -/
def execGroup15B (h : Head) (b : Basic) (s : State) : Host.Outcome State Fault Refusal :=
  whenIdle (fun s => basicUpdate b (commonUpdate h s)) s

/-- GROUP.1A (40_dispatch_basic.md R150): linkage actuator and slow-label variant, then 1B's update. -/
def execGroup1A (h : Head) (la : Bool) (var : BitVec 3) (payload : BitVec 12) (pin : Block) (s : State) :
    Host.Outcome State Fault Refusal :=
  whenIdle (fun s => pinUpdate pin (slowUpdate la var payload (commonUpdate h s))) s

/-- GROUP.1B (40_dispatch_basic.md R151): the program item number. -/
def execGroup1B (h : Head) (pin : Block) (s : State) : Host.Outcome State Fault Refusal :=
  whenIdle (fun s => pinUpdate pin (commonUpdate h s)) s

/-- GROUP.4A (40_dispatch_basic.md R160, R161): skipped when blocks C and D are zero, else the clock time. -/
def execGroup4A (h : Head) (mjd : BitVec 17) (hour : BitVec 5) (minute : BitVec 6) (tzSign : Bool)
    (tzMag : BitVec 5) (s : State) : Host.Outcome State Fault Refusal :=
  whenIdle
    (fun s =>
      if ctPayload mjd hour minute tzSign tzMag = 0 then commonUpdate h s
      else clockUpdate mjd hour minute tzSign tzMag (commonUpdate h s)) s

/-- GROUP.7A (40_dispatch_basic.md R170): the common update alone. -/
def execGroup7A (h : Head) (s : State) : Host.Outcome State Fault Refusal :=
  whenIdle (fun s => commonUpdate h s) s

/-- GROUP.9A (40_dispatch_basic.md R170): the common update alone. -/
def execGroup9A (h : Head) (s : State) : Host.Outcome State Fault Refusal :=
  whenIdle (fun s => commonUpdate h s) s

/-- GROUP.13A (40_dispatch_basic.md R170): the common update alone. -/
def execGroup13A (h : Head) (s : State) : Host.Outcome State Fault Refusal :=
  whenIdle (fun s => commonUpdate h s) s

/-- GROUP.15A (40_dispatch_basic.md R170): the common update alone. -/
def execGroup15A (h : Head) (s : State) : Host.Outcome State Fault Refusal :=
  whenIdle (fun s => commonUpdate h s) s

end Sys2Proof.Machine
end

