-- ==== Sys2Proof/Machine/Cipher.lean ====
section
/-! DEFINITION. The location-decryption cipher and its key lookup (45_cipher.md). -/

namespace Sys2Proof.Machine

/-- C.DECRYPT (45_cipher.md R312): the key word taken apart. -/
def execCDecrypt (loc key : Block) (s : State) : Host.Outcome State Fault Refusal :=
  .next (answer (.decrypted (decryptX loc (keyXorValue key) (keyStartBit key) (keyRotateAmount key))) s)

/-- C.DECRYPTX (45_cipher.md R311). -/
def execCDecryptX (loc : Block) (xorValue : BitVec 8) (startBit rotateAmount : BitVec 4) (s : State) :
    Host.Outcome State Fault Refusal :=
  .next (answer (.decrypted (decryptX loc xorValue startBit rotateAmount)) s)

/-- C.LOOKUP (45_cipher.md R316, R318). -/
def execCLookup (mode : Bool) (svc : BitVec 4) (idx : BitVec 5) (s : State) : Host.Outcome State Fault Refusal :=
  .next (answer (.key (lookupKey Config.keys mode svc idx).1 (lookupKey Config.keys mode svc idx).2) s)

end Sys2Proof.Machine
end

