-- ==== Sys2Proof/Machine/Classifier.lean ====
section
/-! DEFINITION. The TMC payload classifier (43_tmc_classifier.md): two pure functions of their operands (R251). -/

namespace Sys2Proof.Machine

/-- T.CLASS3A (43_tmc_classifier.md R252). -/
def execTClass3A (y : Block) (s : State) : Host.Outcome State Fault Refusal :=
  .next (answer (.class3A (classify3A y)) s)

/-- T.CLASS8A (43_tmc_classifier.md R255). -/
def execTClass8A (x : BitVec 5) (y z : Block) (s : State) : Host.Outcome State Fault Refusal :=
  .next (answer (.class8A (classify8A Config.isEncAdmin x y z)) s)

end Sys2Proof.Machine
end

