-- ==== Sys2Proof/Machine/Eon.lean ====
section
/-! DEFINITION. The other-network groups 14A and 14B (42_oda_eon.md). -/

namespace Sys2Proof.Machine

/-- GROUP.14A (42_oda_eon.md R236 to R243): the variant's writes, then 14B's shared update, then the event of a
frequency variant. -/
def execGroup14A (h : Head) (tpon : Bool) (var : BitVec 4) (payload pion : Block) (s : State) :
    Host.Outcome State Fault Refusal :=
  whenIdle
    (fun s =>
      match eonEventParam var with
      | some n =>
        emit .eon n true payload pion .nothing
          (eonCommon tpon pion (eonVariantUpdate var payload pion (commonUpdate h s)))
      | none => eonCommon tpon pion (eonVariantUpdate var payload pion (commonUpdate h s))) s

/-- GROUP.14B (42_oda_eon.md R245): the shared update and the other network's TA. -/
def execGroup14B (h : Head) (tpon taon : Bool) (pion : Block) (s : State) : Host.Outcome State Fault Refusal :=
  whenIdle
    (fun s =>
      let s' := eonCommon tpon pion (commonUpdate h s)
      { s' with eon := { s'.eon with ta := taon } }) s

end Sys2Proof.Machine
end

