-- ==== Sys2Proof/Machine/HostOps.lean ====
section
/-! DEFINITION. The host operations RESET, QSTATUS, QTEXT, QTIME and EVCFG (46_host_ops.md). -/

namespace Sys2Proof.Machine

/-- RESET (46_host_ops.md R330). -/
def execReset (s : State) : Host.Outcome State Fault Refusal :=
  whenIdle (fun s => answer .none (stationReset s)) s

/-- QSTATUS (46_host_ops.md R332): legal also at an event point (60_exceptions.md R361). -/
def execQStatus (s : State) : Host.Outcome State Fault Refusal :=
  .next (answer (.status (snapshot s)) s)

/-- QTEXT (46_host_ops.md R336): one buffer through the filter; `buf` 3 is refused. -/
def execQText (buf : BitVec 2) (s : State) : Host.Outcome State Fault Refusal :=
  match textSelector buf with
  | some sp => .next (answer (.text (filteredBuffer s sp)) s)
  | none => .refused .badTextSelector

/-- QTIME (46_host_ops.md R338): the time fields only while the time is available. -/
def execQTime (s : State) : Host.Outcome State Fault Refusal :=
  .next (answer (.time (if s.timeAvailable then some s.time else none)) s)

/-- EVCFG (46_host_ops.md R340): the event mask, all seven bits at once. -/
def execEvCfg (mask : BitVec 7) (s : State) : Host.Outcome State Fault Refusal :=
  whenIdle (fun s => answer .none { s with even := mask }) s

end Sys2Proof.Machine
end

