-- ==== Sys2Proof/Machine/Oda.lean ====
section
/-! DEFINITION. Announcements and carriers: 3A, the thirteen generic carriers, 5A, 5B and 8A (42_oda_eon.md). -/

namespace Sys2Proof.Machine

/-- GROUP.3A (42_oda_eon.md R212): the slot write, then the announcement event whether or not the AID is known. -/
def execGroup3A (h : Head) (cig : BitVec 5) (msg aid : Block) (s : State) : Host.Outcome State Fault Refusal :=
  whenIdle
    (fun s =>
      emit (announcementKind Config.kind3A) (cig.setWidth 8) true msg aid .nothing
        (slotUpdate cig msg aid (commonUpdate h s))) s

/-- GROUP.3B (42_oda_eon.md R220): a generic carrier, block C zeroed in the ODA event. -/
def execGroup3B (h : Head) (sub : BitVec 5) (d : Block) (s : State) : Host.Outcome State Fault Refusal :=
  whenIdle (fun s => carrierB .oda h sub d s) s

/-- GROUP.4B (42_oda_eon.md R220): a generic carrier, block C zeroed in the ODA event. -/
def execGroup4B (h : Head) (sub : BitVec 5) (d : Block) (s : State) : Host.Outcome State Fault Refusal :=
  whenIdle (fun s => carrierB .oda h sub d s) s

/-- GROUP.6A (42_oda_eon.md R220): a generic carrier, block C in the ODA event. -/
def execGroup6A (h : Head) (sub : BitVec 5) (c d : Block) (s : State) : Host.Outcome State Fault Refusal :=
  whenIdle (fun s => carrierA .oda h sub c d s) s

/-- GROUP.6B (42_oda_eon.md R220): a generic carrier, block C zeroed in the ODA event. -/
def execGroup6B (h : Head) (sub : BitVec 5) (d : Block) (s : State) : Host.Outcome State Fault Refusal :=
  whenIdle (fun s => carrierB .oda h sub d s) s

/-- GROUP.7B (42_oda_eon.md R220): a generic carrier, block C zeroed in the ODA event. -/
def execGroup7B (h : Head) (sub : BitVec 5) (d : Block) (s : State) : Host.Outcome State Fault Refusal :=
  whenIdle (fun s => carrierB .oda h sub d s) s

/-- GROUP.8B (42_oda_eon.md R220): a generic carrier, block C zeroed in the ODA event. -/
def execGroup8B (h : Head) (sub : BitVec 5) (d : Block) (s : State) : Host.Outcome State Fault Refusal :=
  whenIdle (fun s => carrierB .oda h sub d s) s

/-- GROUP.9B (42_oda_eon.md R220): a generic carrier, block C zeroed in the ODA event. -/
def execGroup9B (h : Head) (sub : BitVec 5) (d : Block) (s : State) : Host.Outcome State Fault Refusal :=
  whenIdle (fun s => carrierB .oda h sub d s) s

/-- GROUP.10B (42_oda_eon.md R220): a generic carrier, block C zeroed in the ODA event. -/
def execGroup10B (h : Head) (sub : BitVec 5) (d : Block) (s : State) : Host.Outcome State Fault Refusal :=
  whenIdle (fun s => carrierB .oda h sub d s) s

/-- GROUP.11A (42_oda_eon.md R220): a generic carrier, block C in the ODA event. -/
def execGroup11A (h : Head) (sub : BitVec 5) (c d : Block) (s : State) : Host.Outcome State Fault Refusal :=
  whenIdle (fun s => carrierA .oda h sub c d s) s

/-- GROUP.11B (42_oda_eon.md R220): a generic carrier, block C zeroed in the ODA event. -/
def execGroup11B (h : Head) (sub : BitVec 5) (d : Block) (s : State) : Host.Outcome State Fault Refusal :=
  whenIdle (fun s => carrierB .oda h sub d s) s

/-- GROUP.12A (42_oda_eon.md R220): a generic carrier, block C in the ODA event. -/
def execGroup12A (h : Head) (sub : BitVec 5) (c d : Block) (s : State) : Host.Outcome State Fault Refusal :=
  whenIdle (fun s => carrierA .oda h sub c d s) s

/-- GROUP.12B (42_oda_eon.md R220): a generic carrier, block C zeroed in the ODA event. -/
def execGroup12B (h : Head) (sub : BitVec 5) (d : Block) (s : State) : Host.Outcome State Fault Refusal :=
  whenIdle (fun s => carrierB .oda h sub d s) s

/-- GROUP.13B (42_oda_eon.md R220): a generic carrier, block C zeroed in the ODA event. -/
def execGroup13B (h : Head) (sub : BitVec 5) (d : Block) (s : State) : Host.Outcome State Fault Refusal :=
  whenIdle (fun s => carrierB .oda h sub d s) s

/-- GROUP.5A (42_oda_eon.md R228): the transparent data channel. -/
def execGroup5A (h : Head) (sub : BitVec 5) (c d : Block) (s : State) : Host.Outcome State Fault Refusal :=
  whenIdle (fun s => carrierA .tdc h sub c d s) s

/-- GROUP.5B (42_oda_eon.md R228): the transparent data channel, block C zeroed. -/
def execGroup5B (h : Head) (sub : BitVec 5) (d : Block) (s : State) : Host.Outcome State Fault Refusal :=
  whenIdle (fun s => carrierB .tdc h sub d s) s

/-- GROUP.8A (42_oda_eon.md R232): the TMC carrier. -/
def execGroup8A (h : Head) (sub : BitVec 5) (c d : Block) (s : State) : Host.Outcome State Fault Refusal :=
  whenIdle (fun s => carrierA .tmc h sub c d s) s

end Sys2Proof.Machine
end

