-- ==== Sys2Proof/Machine/Text.lean ====
section
/-! DEFINITION. The text group types: 2A and 2B (radiotext) and 10A (program-type name) (41_text_reassembly.md). -/

namespace Sys2Proof.Machine

/-- GROUP.2A (41_text_reassembly.md R185): on a flip the RT event comes before the clear; then the tracker and four
characters. -/
def execGroup2A (h : Head) (tog : Bool) (seg : BitVec 4) (ch0 ch1 ch2 ch3 : Byte) (s : State) :
    Host.Outcome State Fault Refusal :=
  whenIdle
    (fun s =>
      if flips s.rtToggle tog then
        emit .rt 0 true 0 0 (.radiotext4 tog seg ch0 ch1 ch2 ch3) (commonUpdate h s)
      else radiotextWrite false tog seg [ch0, ch1, ch2, ch3] (commonUpdate h s)) s

/-- GROUP.2B (41_text_reassembly.md R186): as 2A with two characters. -/
def execGroup2B (h : Head) (tog : Bool) (seg : BitVec 4) (ch0 ch1 : Byte) (s : State) :
    Host.Outcome State Fault Refusal :=
  whenIdle
    (fun s =>
      if flips s.rtToggle tog then emit .rt 0 false 0 0 (.radiotext2 tog seg ch0 ch1) (commonUpdate h s)
      else radiotextWrite false tog seg [ch0, ch1] (commonUpdate h s)) s

/-- GROUP.10A (41_text_reassembly.md R192): clear on a flip, tracker, four characters; no event. -/
def execGroup10A (h : Head) (tog : Bool) (seg : BitVec 1) (ch0 ch1 ch2 ch3 : Byte) (s : State) :
    Host.Outcome State Fault Refusal :=
  whenIdle (fun s => typeNameWrite tog seg [ch0, ch1, ch2, ch3] (commonUpdate h s)) s

end Sys2Proof.Machine
end

