-- ==== Sys2Proof/Machine/Unpacker.lean ====
section
/-! DEFINITION. The variable-width bit-field unpacker (44_bit_unpacker.md). Every operation is legal at an event point (60_exceptions.md R361). -/

namespace Sys2Proof.Machine

/-- U.CLEAR (44_bit_unpacker.md R274): container and cursor. -/
def execUClear (s : State) : Host.Outcome State Fault Refusal :=
  .next (answer .none { s with cont := Cont.zero, cur := Cursor.fresh })

/-- U.LOAD (44_bit_unpacker.md R276). -/
def execULoad (i : BitVec 2) (chunk : BitVec 28) (s : State) : Host.Outcome State Fault Refusal :=
  .next (answer .none { s with cont := contSet s.cont i (rawSlice chunk) })

/-- U.GLUE (44_bit_unpacker.md R278). -/
def execUGlue (s : State) : Host.Outcome State Fault Refusal :=
  .next (answer .none { s with cont := glued s.cont })

/-- U.FLT (44_bit_unpacker.md R296, R298). -/
def execUFlt (w : Block) (s : State) : Host.Outcome State Fault Refusal :=
  .next
    (if matchesFlt Config.fltMagic w then
      answer (.flt true (fltCountry w) (fltTable w) (s.cont.c0.extractLsb' 16 16))
        { s with cont := fltShifted s.cont }
    else answer (.flt false 0 0 0) s)

/-- U.RESTART (44_bit_unpacker.md R281). -/
def execURestart (s : State) : Host.Outcome State Fault Refusal :=
  .next (answer .none { s with cur := Cursor.fresh })

/-- U.SETCUR (44_bit_unpacker.md R282): an illegal cursor word is refused. -/
def execUSetCur (c : BitVec 8) (s : State) : Host.Outcome State Fault Refusal :=
  if legalCursor (cursorOfWord c) then .next (answer .none { s with cur := cursorOfWord c })
  else .refused .badCursorWord

/-- U.READ (44_bit_unpacker.md R284): a size outside 1 to 16 is refused, as is an illegal cursor (10_state.md R42). -/
def execURead (size : BitVec 5) (s : State) : Host.Outcome State Fault Refusal :=
  if legalReadSize size.toNat then
    if readable s.cur then
      .next (answer (.bits (readField s.cont s.cur size.toNat).1)
        { s with cur := (readField s.cont s.cur size.toNat).2 })
    else .refused .illegalCursor
  else .refused .badReadSize

/-- U.LABEL (44_bit_unpacker.md R290, R291): `ok` is false exactly at EOF. An illegal cursor is refused (10_state.md
R42). -/
def execULabel (s : State) : Host.Outcome State Fault Refusal :=
  if readable s.cur then
    let r := readLabel s.cont s.cur
    .next (answer (.label (!atEof r.2.2) r.1 r.2.1) { s with cur := r.2.2 })
  else .refused .illegalCursor

end Sys2Proof.Machine
end

