-- ==== Sys2Proof/Machine/Dispatch.lean ====
section
/-! DEFINITION. The dispatch: one arm for each operation of spec/opcode_table.json, one direct call of its meaning
(30_encoding.md R116, R128). -/

namespace Sys2Proof.Machine

def exec (i : Instr) (s : State) : Host.Outcome State Fault Refusal :=
  match i with
  | .group0A h b afpair ch0 ch1 => Sys2Proof.Machine.execGroup0A h b afpair ch0 ch1 s
  | .group0B h b ch0 ch1 => Sys2Proof.Machine.execGroup0B h b ch0 ch1 s
  | .group1A h la var payload pin => Sys2Proof.Machine.execGroup1A h la var payload pin s
  | .group1B h pin => Sys2Proof.Machine.execGroup1B h pin s
  | .group2A h tog seg ch0 ch1 ch2 ch3 => Sys2Proof.Machine.execGroup2A h tog seg ch0 ch1 ch2 ch3 s
  | .group2B h tog seg ch0 ch1 => Sys2Proof.Machine.execGroup2B h tog seg ch0 ch1 s
  | .group3A h cig msg aid => Sys2Proof.Machine.execGroup3A h cig msg aid s
  | .group3B h sub d => Sys2Proof.Machine.execGroup3B h sub d s
  | .group4A h mjd hour minute tzSign tzMag => Sys2Proof.Machine.execGroup4A h mjd hour minute tzSign tzMag s
  | .group4B h sub d => Sys2Proof.Machine.execGroup4B h sub d s
  | .group5A h sub c d => Sys2Proof.Machine.execGroup5A h sub c d s
  | .group5B h sub d => Sys2Proof.Machine.execGroup5B h sub d s
  | .group6A h sub c d => Sys2Proof.Machine.execGroup6A h sub c d s
  | .group6B h sub d => Sys2Proof.Machine.execGroup6B h sub d s
  | .group7A h => Sys2Proof.Machine.execGroup7A h s
  | .group7B h sub d => Sys2Proof.Machine.execGroup7B h sub d s
  | .group8A h sub c d => Sys2Proof.Machine.execGroup8A h sub c d s
  | .group8B h sub d => Sys2Proof.Machine.execGroup8B h sub d s
  | .group9A h => Sys2Proof.Machine.execGroup9A h s
  | .group9B h sub d => Sys2Proof.Machine.execGroup9B h sub d s
  | .group10A h tog seg ch0 ch1 ch2 ch3 => Sys2Proof.Machine.execGroup10A h tog seg ch0 ch1 ch2 ch3 s
  | .group10B h sub d => Sys2Proof.Machine.execGroup10B h sub d s
  | .group11A h sub c d => Sys2Proof.Machine.execGroup11A h sub c d s
  | .group11B h sub d => Sys2Proof.Machine.execGroup11B h sub d s
  | .group12A h sub c d => Sys2Proof.Machine.execGroup12A h sub c d s
  | .group12B h sub d => Sys2Proof.Machine.execGroup12B h sub d s
  | .group13A h => Sys2Proof.Machine.execGroup13A h s
  | .group13B h sub d => Sys2Proof.Machine.execGroup13B h sub d s
  | .group14A h tpon var payload pion => Sys2Proof.Machine.execGroup14A h tpon var payload pion s
  | .group14B h tpon taon pion => Sys2Proof.Machine.execGroup14B h tpon taon pion s
  | .group15A h => Sys2Proof.Machine.execGroup15A h s
  | .group15B h b => Sys2Proof.Machine.execGroup15B h b s
  | .reset => Sys2Proof.Machine.execReset s
  | .qStatus => Sys2Proof.Machine.execQStatus s
  | .qText buf => Sys2Proof.Machine.execQText buf s
  | .qTime => Sys2Proof.Machine.execQTime s
  | .evCfg mask => Sys2Proof.Machine.execEvCfg mask s
  | .cDecrypt loc key => Sys2Proof.Machine.execCDecrypt loc key s
  | .cDecryptX loc xorValue startBit rotateAmount => Sys2Proof.Machine.execCDecryptX loc xorValue startBit rotateAmount s
  | .cLookup mode svc idx => Sys2Proof.Machine.execCLookup mode svc idx s
  | .uClear => Sys2Proof.Machine.execUClear s
  | .uLoad slice chunk => Sys2Proof.Machine.execULoad slice chunk s
  | .uGlue => Sys2Proof.Machine.execUGlue s
  | .uFlt w => Sys2Proof.Machine.execUFlt w s
  | .uRestart => Sys2Proof.Machine.execURestart s
  | .uSetCur c => Sys2Proof.Machine.execUSetCur c s
  | .uRead size => Sys2Proof.Machine.execURead size s
  | .uLabel => Sys2Proof.Machine.execULabel s
  | .tClass3A y => Sys2Proof.Machine.execTClass3A y s
  | .tClass8A x y z => Sys2Proof.Machine.execTClass8A x y z s

end Sys2Proof.Machine
end

