-- ==== Sys2Proof/Machine/Serve.lean ====
section
/-! DEFINITION. Taking the host's next request and running it (00_scope.md R6, 10_state.md R45, R55; log 1 and 2). -/

namespace Sys2Proof.Machine

/-- The host's next request and the state without it (10_state.md R45: the order of execution is the order in which
the host presents operations). -/
def nextRequest (s : State) : Option (Request × State) :=
  match s.inbox with
  | [] => none
  | r :: rest => some (r, { s with inbox := rest })

/-- The host presents an operation as its very next request. -/
def present (p : PortWord) (s : State) : State := { s with inbox := .op p :: s.inbox }

/-- Run one request: an operation as the decoder reads it, or the acknowledgement of the pending event. -/
def serve (r : Request) (s : State) : Host.Outcome State Fault Refusal :=
  match r with
  | .ack => acknowledge s
  | .op p =>
    match decode p with
    | .ok i => exec i s
    | .error e => .refused (.undecodable e)

/-- The step relation as 10_state.md R45 and R55 have it: the request is an argument, the state is the block's alone,
and the answer of a command is an output (`Result.none` where there is none). `draws` numbers the free values of
40_dispatch_basic.md R165. -/
def transition (r : Request) (draws : Nat) (b : BlockState) : Host.Outcome (BlockState × Result) Fault Refusal :=
  match serve r { toBlockState := b, toHostSide := { HostSide.silent with draws := draws } } with
  | .next t => .next (t.toBlockState, t.result)
  | .fault e => .fault e
  | .refused e => .refused e

end Sys2Proof.Machine
end

