-- ==== Sys2Proof/Machine/Step.lean ====
section
/-! DEFINITION. One step: the block takes the host's next request and runs it (00_scope.md R6, 10_state.md R45,
70_reset_and_hazards.md R400; log 1 and 2). -/

namespace Sys2Proof.Machine

/-- One step of a run: `transition` of the inbox's first request on the block's state. The first request of the inbox is taken and run; with none the block is idle and keeps all state
(60_exceptions.md R376, 70_reset_and_hazards.md R384). -/
def step (s : State) : Host.Outcome State Fault Refusal :=
  match nextRequest s with
  | none => .next s
  | some (r, s') => serve r s'

/-- The host presents, as its next request, the operation of an opcode-table word. -/
def State.withFetchWord (s : State) (nbits w : Nat) : State := present (tablePortWord nbits w) s

end Sys2Proof.Machine
end

