-- ==== Sys2Proof/WellFormed.lean ====
section
/-! DEFINITION. Which operations lie in the domain the spec defines, by their operands alone: the complement of what
60_exceptions.md R353 marks `refuse` whatever the state. -/

namespace Sys2Proof

/-- An operation whose operands lie in the domain the spec defines (46_host_ops.md R336, 44_bit_unpacker.md R282,
R284; 60_exceptions.md R353). Every other operand range is its field's width. -/
def Instr.wellFormed : Instr → Bool
  | .qText buf => (Machine.textSelector buf).isSome
  | .uSetCur c => Machine.legalCursor (Machine.cursorOfWord c)
  | .uRead size => Machine.legalReadSize size.toNat
  | .group0A .. | .group0B .. | .group1A .. | .group1B .. | .group2A .. | .group2B .. | .group3A .. | .group3B ..
  | .group4A .. | .group4B .. | .group5A .. | .group5B .. | .group6A .. | .group6B .. | .group7A .. | .group7B ..
  | .group8A .. | .group8B .. | .group9A .. | .group9B .. | .group10A .. | .group10B .. | .group11A .. | .group11B ..
  | .group12A .. | .group12B .. | .group13A .. | .group13B .. | .group14A .. | .group14B .. | .group15A ..
  | .group15B .. | .reset | .qStatus | .qTime | .evCfg .. | .cDecrypt .. | .cDecryptX .. | .cLookup ..
  | .uClear | .uLoad .. | .uGlue | .uFlt .. | .uRestart | .uLabel | .tClass3A .. | .tClass8A .. => true

end Sys2Proof
end

