-- ==== Sys2Proof/Safety.lean ====
section
/-! DEFINITION. The terms the statements use: what counts as a sound state (`Inv`), the sorts of operations, the
spec's registers with their writers, the container read as one stream, the bits a group format uses, and the calendar. -/

namespace Sys2Proof.Machine

/-- The next state of an outcome, if it has one. -/
def nextState? : Host.Outcome State Fault Refusal → Option State
  | .next s => some s
  | .fault _ => none
  | .refused _ => none

/-- The refusal of an outcome, if it is one. -/
def refusal? : Host.Outcome State Fault Refusal → Option Refusal
  | .next _ => none
  | .fault _ => none
  | .refused r => some r

/-! ### Sorts of operations -/

/-- The operations of the GRP port (30_encoding.md R116). -/
def isGroup : Instr → Bool
  | .group0A .. | .group0B .. | .group1A .. | .group1B .. | .group2A .. | .group2B .. | .group3A ..
  | .group3B .. | .group4A .. | .group4B .. | .group5A .. | .group5B .. | .group6A .. | .group6B ..
  | .group7A .. | .group7B .. | .group8A .. | .group8B .. | .group9A .. | .group9B .. | .group10A ..
  | .group10B .. | .group11A .. | .group11B .. | .group12A .. | .group12B .. | .group13A .. | .group13B ..
  | .group14A .. | .group14B .. | .group15A .. | .group15B .. => true
  | .reset .. | .qStatus .. | .qText .. | .qTime .. | .evCfg .. | .cDecrypt .. | .cDecryptX .. | .cLookup ..
  | .uClear .. | .uLoad .. | .uGlue .. | .uFlt .. | .uRestart .. | .uSetCur .. | .uRead .. | .uLabel ..
  | .tClass3A .. | .tClass8A .. => false

/-- The operations of the unpacker (44_bit_unpacker.md). -/
def isUnpacker : Instr → Bool
  | .uClear .. | .uLoad .. | .uGlue .. | .uFlt .. | .uRestart .. | .uSetCur .. | .uRead .. | .uLabel .. => true
  | .group0A .. | .group0B .. | .group1A .. | .group1B .. | .group2A .. | .group2B .. | .group3A ..
  | .group3B .. | .group4A .. | .group4B .. | .group5A .. | .group5B .. | .group6A .. | .group6B ..
  | .group7A .. | .group7B .. | .group8A .. | .group8B .. | .group9A .. | .group9B .. | .group10A ..
  | .group10B .. | .group11A .. | .group11B .. | .group12A .. | .group12B .. | .group13A .. | .group13B ..
  | .group14A .. | .group14B .. | .group15A .. | .group15B .. | .reset .. | .qStatus .. | .qText .. | .qTime ..
  | .evCfg .. | .cDecrypt .. | .cDecryptX .. | .cLookup .. | .tClass3A .. | .tClass8A .. => false

/-- The operations that are refused while an event waits for its acknowledgement (60_exceptions.md R361). -/
def needsIdle (i : Instr) : Bool :=
  match i with
  | .reset => true
  | .evCfg _ => true
  | .group0A .. | .group0B .. | .group1A .. | .group1B .. | .group2A .. | .group2B .. | .group3A ..
  | .group3B .. | .group4A .. | .group4B .. | .group5A .. | .group5B .. | .group6A .. | .group6B ..
  | .group7A .. | .group7B .. | .group8A .. | .group8B .. | .group9A .. | .group9B .. | .group10A ..
  | .group10B .. | .group11A .. | .group11B .. | .group12A .. | .group12B .. | .group13A .. | .group13B ..
  | .group14A .. | .group14B .. | .group15A .. | .group15B .. => true
  | .qStatus .. | .qText .. | .qTime .. | .cDecrypt .. | .cDecryptX .. | .cLookup .. | .uClear .. | .uLoad ..
  | .uGlue .. | .uFlt .. | .uRestart .. | .uSetCur .. | .uRead .. | .uLabel .. | .tClass3A .. | .tClass8A .. => false

/-- A GROUP operation carried to its end: the pending event acknowledged and the rest of the operation run
(60_exceptions.md R360, R363). -/
def settled (s : State) : State :=
  match s.pending with
  | some p => runRest p.rest { s with pending := none }
  | none => s

/-! ### The spec's registers and their writers -/

/-- `t` with the host's side (log 1, 5, 6) taken from `s`: what is left to compare is the block's state alone. -/
def State.withOwn (t s : State) : State := { t with toHostSide := s.toHostSide }

/-- The registers and buffers of 10_state.md, by name. -/
inductive Reg where
  | pi
  | tp
  | pty
  | ta
  | ms
  | di
  | pin
  | li
  | opc
  | ecc
  | tmcId
  | pagId
  | lang
  | ps
  | ptyn
  | rt
  | slots
  | eonPi
  | eonTp
  | eonTa
  | eonPty
  | eonPs
  | eonPin
  | eonLi
  | timeAvailable
  | time
  | rtToggle
  | ptynToggle
  | even
  | cont
  | cur
deriving DecidableEq, Repr

/-- Two states hold the same value in a register. -/
def sameReg (r : Reg) (s t : State) : Prop :=
  match r with
  | .pi => t.reg.pi = s.reg.pi
  | .tp => t.reg.tp = s.reg.tp
  | .pty => t.reg.pty = s.reg.pty
  | .ta => t.reg.ta = s.reg.ta
  | .ms => t.reg.ms = s.reg.ms
  | .di => t.reg.di = s.reg.di
  | .pin => t.reg.pin = s.reg.pin
  | .li => t.reg.li = s.reg.li
  | .opc => t.reg.opc = s.reg.opc
  | .ecc => t.reg.ecc = s.reg.ecc
  | .tmcId => t.reg.tmcId = s.reg.tmcId
  | .pagId => t.reg.pagId = s.reg.pagId
  | .lang => t.reg.lang = s.reg.lang
  | .ps => t.ps = s.ps
  | .ptyn => t.ptyn = s.ptyn
  | .rt => t.rt = s.rt
  | .slots => t.slot = s.slot
  | .eonPi => t.eon.pi = s.eon.pi
  | .eonTp => t.eon.tp = s.eon.tp
  | .eonTa => t.eon.ta = s.eon.ta
  | .eonPty => t.eon.pty = s.eon.pty
  | .eonPs => t.eon.ps = s.eon.ps
  | .eonPin => t.eon.pin = s.eon.pin
  | .eonLi => t.eon.li = s.eon.li
  | .timeAvailable => t.timeAvailable = s.timeAvailable
  | .time => t.time = s.time
  | .rtToggle => t.rtToggle = s.rtToggle
  | .ptynToggle => t.ptynToggle = s.ptynToggle
  | .even => t.even = s.even
  | .cont => t.cont = s.cont
  | .cur => t.cur = s.cur

/-- The three registers every group writes (40_dispatch_basic.md R140). -/
def commonRegs : List Reg := [.pi, .tp, .pty]

/-- The registers of a slow-label variant (40_dispatch_basic.md R150). -/
def slowRegs (var : BitVec 3) : List Reg :=
  if var = 0 then [.opc, .ecc]
  else if var = 1 then [.tmcId]
  else if var = 2 then [.pagId]
  else if var = 3 then [.lang]
  else []

/-- The registers of an other-network variant (42_oda_eon.md R236). -/
def eonRegs (var : BitVec 4) : List Reg :=
  if var.toNat ≤ 3 then [.eonPs]
  else if var = 12 then [.eonLi]
  else if var = 13 then [.eonPty, .eonTa]
  else []

/-- The registers each operation may write: the "written by" columns of 10_state.md R22, R26 to R52, read by
operation (40_dispatch_basic.md R141). -/
def writtenBy : Instr → List Reg
  | .group0A .. | .group0B .. => commonRegs ++ [.ta, .ms, .di, .ps]
  | .group1A _ _ var _ _ => commonRegs ++ [.li, .pin] ++ slowRegs var
  | .group1B .. => commonRegs ++ [.pin]
  | .group2A .. | .group2B .. => commonRegs ++ [.rt, .rtToggle]
  | .group3A .. => commonRegs ++ [.slots]
  | .group4A .. => commonRegs ++ [.timeAvailable, .time]
  | .group10A .. => commonRegs ++ [.ptyn, .ptynToggle]
  | .group14A _ _ var _ _ => commonRegs ++ [.eonPi, .eonTp] ++ eonRegs var
  | .group14B .. => commonRegs ++ [.eonPi, .eonTp, .eonTa]
  | .group15B .. => commonRegs ++ [.ta, .ms, .di]
  | .group3B .. | .group4B .. | .group5A .. | .group5B .. | .group6A .. | .group6B .. | .group7A .. | .group7B ..
  | .group8A .. | .group8B .. | .group9A .. | .group9B .. | .group10B .. | .group11A .. | .group11B .. | .group12A ..
  | .group12B .. | .group13A .. | .group13B .. | .group15A .. => commonRegs
  | .reset =>
    [.pi, .tp, .pty, .ta, .ms, .di, .pin, .li, .opc, .ecc, .tmcId, .pagId, .lang, .ps, .ptyn, .rt, .slots, .eonPi,
      .eonTp, .eonTa, .eonPty, .eonPs, .eonPin, .eonLi, .timeAvailable, .rtToggle, .ptynToggle]
  | .evCfg .. => [.even]
  | .uClear => [.cont, .cur]
  | .uLoad .. | .uGlue | .uFlt .. => [.cont]
  | .uRestart | .uSetCur .. | .uRead .. | .uLabel => [.cur]
  | .qStatus | .qText .. | .qTime | .cDecrypt .. | .cDecryptX .. | .cLookup .. | .tClass3A .. | .tClass8A .. => []

/-- The groups that only overwrite (20_memory.md R85); a 4A group among them with an MJD the date formula is defined
for, since a smaller one draws free values (40_dispatch_basic.md R165). -/
def onlyOverwrites : Instr → Bool
  | .group0A .. | .group0B .. | .group1A .. | .group1B .. | .group3A .. | .group14A .. | .group14B .. | .group15B .. =>
    true
  | .group4A _ mjd _ _ _ _ => decide (15079 ≤ mjd.toNat)
  | .group2A .. | .group2B .. | .group3B .. | .group4B .. | .group5A .. | .group5B .. | .group6A .. | .group6B ..
  | .group7A .. | .group7B .. | .group8A .. | .group8B .. | .group9A .. | .group9B .. | .group10A .. | .group10B ..
  | .group11A .. | .group11B .. | .group12A .. | .group12B .. | .group13A .. | .group13B .. | .group15A .. | .reset
  | .qStatus | .qText .. | .qTime | .evCfg .. | .cDecrypt .. | .cDecryptX .. | .cLookup .. | .uClear | .uLoad ..
  | .uGlue | .uFlt .. | .uRestart | .uSetCur .. | .uRead .. | .uLabel | .tClass3A .. | .tClass8A .. => false

/-- The operations that move the cursor back (44_bit_unpacker.md R280). -/
def movesCursorBack : Instr → Bool
  | .uClear | .uRestart | .uSetCur .. => true
  | .group0A .. | .group0B .. | .group1A .. | .group1B .. | .group2A .. | .group2B .. | .group3A ..
  | .group3B .. | .group4A .. | .group4B .. | .group5A .. | .group5B .. | .group6A .. | .group6B ..
  | .group7A .. | .group7B .. | .group8A .. | .group8B .. | .group9A .. | .group9B .. | .group10A ..
  | .group10B .. | .group11A .. | .group11B .. | .group12A .. | .group12B .. | .group13A .. | .group13B ..
  | .group14A .. | .group14B .. | .group15A .. | .group15B .. | .reset | .qStatus | .qText .. | .qTime | .evCfg ..
  | .cDecrypt .. | .cDecryptX .. | .cLookup .. | .uLoad .. | .uGlue | .uFlt .. | .uRead .. | .uLabel | .tClass3A ..
  | .tClass8A .. => false

/-! ### The cipher by its key word -/

/-- `DECRYPT(loc, key)` of 45_cipher.md R312 as a function. -/
def cipher (loc key : Block) : Block := decryptX loc (keyXorValue key) (keyStartBit key) (keyRotateAmount key)

/-! ### The invariant -/

/-- The event of a pending latch has the shape 60_exceptions.md R355 gives its kind, and only a radiotext event has
an operation behind it (R362). -/
def eventShape (p : Pending) : Bool :=
  match p.event.kind, p.rest with
  | .af, .nothing => p.event.n == 0 && p.event.f && p.event.w2 == 0
  | .tdc, .nothing => decide (p.event.n.toNat < 32) && (p.event.f || p.event.w1 == 0)
  | .aid, .nothing => decide (p.event.n.toNat < 32) && p.event.f
  | .oda, .nothing => decide (p.event.n.toNat < 32) && (p.event.f || p.event.w1 == 0)
  | .eon, .nothing => (p.event.n == 1 || p.event.n == 2 || p.event.n == 3) && p.event.f
  | .rt, .radiotext4 .. => p.event.n == 0 && p.event.f && p.event.w1 == 0 && p.event.w2 == 0
  | .rt, .radiotext2 .. => p.event.n == 0 && !p.event.f && p.event.w1 == 0 && p.event.w2 == 0
  | .tmc, .nothing => decide (p.event.n.toNat < 32) && p.event.f
  | .af, .radiotext4 .. | .tdc, .radiotext4 .. | .aid, .radiotext4 .. | .oda, .radiotext4 .. | .eon, .radiotext4 ..
  | .tmc, .radiotext4 .. | .af, .radiotext2 .. | .tdc, .radiotext2 .. | .aid, .radiotext2 .. | .oda, .radiotext2 ..
  | .eon, .radiotext2 .. | .tmc, .radiotext2 .. | .rt, .nothing => false

/-- A slot holds only an application id that selects it, or the 0 of reset and of the default-AID rule
(10_state.md R28, 42_oda_eon.md R210, R211). -/
def slotsSound (p : AidParams) (sl : Slots) : Prop :=
  (sl.irds.aid = 0 ∨ sl.irds.aid = p.irds) ∧ (sl.rtp.aid = 0 ∨ sl.rtp.aid = p.rtp) ∧
    (sl.ert.aid = 0 ∨ sl.ert.aid = p.ert) ∧
    (sl.tmc.aid = 0 ∨ sl.tmc.aid = p.tmc0 ∨ sl.tmc.aid = p.tmc1 ∨ sl.tmc.aid = p.tmc2)

/-- The ranges of the time fields that hold for every MJD (10_state.md R32). -/
def timeSound (t : TimeOfDay) : Prop :=
  1 ≤ t.weekday ∧ t.weekday ≤ 7 ∧ -930 ≤ t.tz ∧ t.tz ≤ 930 ∧ t.tz % 30 = 0

/-- What every step keeps: the four byte memories in canonical form and inside their spaces (20_memory.md R72), a legal
cursor (10_state.md R42), a pending event of a shape its kind allows whose kind is enabled (60_exceptions.md R355,
R358, R361), slots that hold only their own application ids (10_state.md R28), and, once the time is available, time
fields in their ranges (R32). -/
structure Inv (s : State) : Prop where
  psCanonical : Memory.wf .ps s.ps
  ptynCanonical : Memory.wf .ptyn s.ptyn
  rtCanonical : Memory.wf .rt s.rt
  eonPsCanonical : Memory.wf .eonPs s.eon.ps
  cursorLegal : legalCursor s.cur = true
  pendingSound : ∀ p, s.pending = some p → eventShape p = true ∧ eventEnabled s.even p.event.kind = true
  slotsKnown : slotsSound Config.aids s.slot
  timeInRange : s.timeAvailable = true → timeSound s.time

/-! ### The container as one stream (44_bit_unpacker.md R272, R280) -/

/-- The position of the next unread stream bit (44_bit_unpacker.md R280): 0 when fresh, 128 at EOF. -/
def position (c : Cursor) : Nat :=
  if c.sliceIndex.toNat = 0 then 0
  else if c.sliceIndex.toNat = 6 then 128
  else 32 * (c.sliceIndex.toNat - 1) + (31 - c.bitIndex.toNat)

/-- The cursor that stands at stream position `p`: EOF from 128 on (44_bit_unpacker.md R285). -/
def cursorAt (p : Nat) : Cursor :=
  if p < 128 then { bitIndex := BitVec.ofNat 5 (31 - p % 32), sliceIndex := BitVec.ofNat 3 (p / 32 + 1) }
  else eofCursor

/-- Stream bit `p` (44_bit_unpacker.md R272): bit `31 - (p mod 32)` of `CONT[p div 32]`; zeros stand behind the
stream's end (R286). -/
def streamBit (c : Cont) (p : Nat) : Nat :=
  if p < 128 then ((contSlice c (p / 32)).getLsbD (31 - p % 32)).toNat else 0

/-- The `w` stream bits from position `p` on as a number, the first bit the most significant (20_memory.md R75). -/
def streamNumber (c : Cont) (p : Nat) : Nat → Nat
  | 0 => 0
  | w + 1 => 2 * streamNumber c p w + streamBit c (p + w)

/-- `width(type)` of 30_encoding.md R124 for the types 0 to 14. -/
def widthOfType (t : Nat) : Nat :=
  if t ≤ 1 then 3
  else if t ≤ 4 then 5
  else if t ≤ 8 then 8
  else if t = 9 then 11
  else if t ≤ 13 then 16
  else 0

/-! ### The bits a group format uses -/

/-- The bits of the 64-bit group word that the format of a code does not mark "ignored" (30_encoding.md R104 to R114,
the fields of spec/opcode_table.json). -/
def usedBits (code : Nat) : BitVec 64 :=
  match code with
  | 0 => 0xFFFFFFFFFFFFFFFF
  | 1 => 0xFFFFFFFF0000FFFF
  | 2 => 0xFFFFFFE0FFFFFFFF
  | 3 => 0xFFFFFFE00000FFFF
  | 4 => 0xFFFFFFFFFFFFFFFF
  | 5 => 0xFFFFFFFF0000FFFF
  | 6 => 0xFFFFFFFFFFFFFFFF
  | 7 => 0xFFFFFFFF0000FFFF
  | 8 => 0xFFFFFFE3FFFFFFFF
  | 9 => 0xFFFFFFFF0000FFFF
  | 10 => 0xFFFFFFFFFFFFFFFF
  | 11 => 0xFFFFFFFF0000FFFF
  | 12 => 0xFFFFFFFFFFFFFFFF
  | 13 => 0xFFFFFFFF0000FFFF
  | 14 => 0xFFFFFFE000000000
  | 15 => 0xFFFFFFFF0000FFFF
  | 16 => 0xFFFFFFFFFFFFFFFF
  | 17 => 0xFFFFFFFF0000FFFF
  | 18 => 0xFFFFFFE000000000
  | 19 => 0xFFFFFFFF0000FFFF
  | 20 => 0xFFFFFFF1FFFFFFFF
  | 21 => 0xFFFFFFFF0000FFFF
  | 22 => 0xFFFFFFFFFFFFFFFF
  | 23 => 0xFFFFFFFF0000FFFF
  | 24 => 0xFFFFFFFFFFFFFFFF
  | 25 => 0xFFFFFFFF0000FFFF
  | 26 => 0xFFFFFFE000000000
  | 27 => 0xFFFFFFFF0000FFFF
  | 28 => 0xFFFFFFFFFFFFFFFF
  | 29 => 0xFFFFFFF80000FFFF
  | 30 => 0xFFFFFFE000000000
  | _ => 0xFFFFFFFF00000000

/-! ### The Gregorian calendar (40_dispatch_basic.md R166) -/

/-- A leap year of the Gregorian calendar. -/
def isLeapYear (y : Nat) : Bool := y % 4 == 0 && (y % 100 != 0 || y % 400 == 0)

/-- The length of a month of the Gregorian calendar. -/
def daysInMonth (y m : Nat) : Nat :=
  if m = 2 then (if isLeapYear y then 29 else 28)
  else if m = 4 ∨ m = 6 ∨ m = 9 ∨ m = 11 then 30
  else 31

/-- The day after (year, month, day) in the Gregorian calendar. -/
def dayAfter (y m d : Nat) : Nat × Nat × Nat :=
  if d < daysInMonth y m then (y, m, d + 1)
  else if m < 12 then (y, m + 1, 1)
  else (y + 1, 1, 1)

end Sys2Proof.Machine
end

