-- ==== Sys2Proof/Certificates/Slice0/Obligations.lean ====
section
/-! DEFINITION. The statements for the provers. Each docstring says what the statement says and, where it rests on a
choice of the model, names the log entry; OBLIGATIONS.json names the rules. In a frame `t.withOwn s` takes the model's
own three fields from `s`, so that the equation is about the spec's state alone. The answer of a command is read from the model's
field `result` (log 5). -/

section Slice0Statements

open Sys2Proof Sys2Proof.Machine

/-- For every operation and every value of its operands, the decoder reads the operation back from the port word the
encoder writes. The places of command operands are the model's choice (log 3). -/
def Obligations.DecodeOfEncodeIsTheInstruction : Prop :=
  ∀ i : Instr, decode (encode i) = .ok i

/-- For every 64-bit group word, encoding the decoded operation gives the word back with the bits its format marks
ignored set to 0: no used bit is lost and no ignored bit matters. -/
def Obligations.GroupWordsKeepTheirUsedBits : Prop :=
  ∀ w : BitVec 64, encode (decodeGroup w) = .group (w &&& usedBits (w.extractLsb' 43 5).toNat)

/-- For every 64-bit group word and each of the 32 codes in bits 47:43, the decoder gives the group type of that
code, with every field taken from the bits of the word that its format names. -/
def Obligations.GroupFormatsNameTheirBits : Prop :=
  ∀ w : BitVec 64,
    let h : Head := ⟨w.extractLsb' 48 16, w.getLsbD 42, w.extractLsb' 37 5⟩
    let code := (w.extractLsb' 43 5).toNat
    (code = 0 → decodeGroup w = .group0A h ⟨w.getLsbD 36, w.getLsbD 35, w.getLsbD 34,
        w.extractLsb' 32 2⟩ (w.extractLsb' 16 16) (w.extractLsb' 8 8) (w.extractLsb' 0 8)) ∧
    (code = 1 → decodeGroup w = .group0B h ⟨w.getLsbD 36, w.getLsbD 35, w.getLsbD 34,
        w.extractLsb' 32 2⟩ (w.extractLsb' 8 8) (w.extractLsb' 0 8)) ∧
    (code = 2 → decodeGroup w = .group1A h (w.getLsbD 31) (w.extractLsb' 28 3) (w.extractLsb' 16 12) (w.extractLsb'
        0 16)) ∧
    (code = 3 → decodeGroup w = .group1B h (w.extractLsb' 0 16)) ∧
    (code = 4 → decodeGroup w = .group2A h (w.getLsbD 36) (w.extractLsb' 32 4) (w.extractLsb' 24 8) (w.extractLsb'
        16 8) (w.extractLsb' 8 8) (w.extractLsb' 0 8)) ∧
    (code = 5 → decodeGroup w = .group2B h (w.getLsbD 36) (w.extractLsb' 32 4) (w.extractLsb' 8 8) (w.extractLsb' 0
        8)) ∧
    (code = 6 → decodeGroup w = .group3A h (w.extractLsb' 32 5) (w.extractLsb' 16 16) (w.extractLsb' 0 16)) ∧
    (code = 7 → decodeGroup w = .group3B h (w.extractLsb' 32 5) (w.extractLsb' 0 16)) ∧
    (code = 8 → decodeGroup w = .group4A h (w.extractLsb' 32 2 ++ w.extractLsb' 17 15) (w.extractLsb' 12 5)
        (w.extractLsb' 6 6) (w.getLsbD 5) (w.extractLsb' 0 5)) ∧
    (code = 9 → decodeGroup w = .group4B h (w.extractLsb' 32 5) (w.extractLsb' 0 16)) ∧
    (code = 10 → decodeGroup w = .group5A h (w.extractLsb' 32 5) (w.extractLsb' 16 16) (w.extractLsb' 0 16)) ∧
    (code = 11 → decodeGroup w = .group5B h (w.extractLsb' 32 5) (w.extractLsb' 0 16)) ∧
    (code = 12 → decodeGroup w = .group6A h (w.extractLsb' 32 5) (w.extractLsb' 16 16) (w.extractLsb' 0 16)) ∧
    (code = 13 → decodeGroup w = .group6B h (w.extractLsb' 32 5) (w.extractLsb' 0 16)) ∧
    (code = 14 → decodeGroup w = .group7A h) ∧
    (code = 15 → decodeGroup w = .group7B h (w.extractLsb' 32 5) (w.extractLsb' 0 16)) ∧
    (code = 16 → decodeGroup w = .group8A h (w.extractLsb' 32 5) (w.extractLsb' 16 16) (w.extractLsb' 0 16)) ∧
    (code = 17 → decodeGroup w = .group8B h (w.extractLsb' 32 5) (w.extractLsb' 0 16)) ∧
    (code = 18 → decodeGroup w = .group9A h) ∧
    (code = 19 → decodeGroup w = .group9B h (w.extractLsb' 32 5) (w.extractLsb' 0 16)) ∧
    (code = 20 → decodeGroup w = .group10A h (w.getLsbD 36) (w.extractLsb' 32 1) (w.extractLsb' 24 8) (w.extractLsb'
        16 8) (w.extractLsb' 8 8) (w.extractLsb' 0 8)) ∧
    (code = 21 → decodeGroup w = .group10B h (w.extractLsb' 32 5) (w.extractLsb' 0 16)) ∧
    (code = 22 → decodeGroup w = .group11A h (w.extractLsb' 32 5) (w.extractLsb' 16 16) (w.extractLsb' 0 16)) ∧
    (code = 23 → decodeGroup w = .group11B h (w.extractLsb' 32 5) (w.extractLsb' 0 16)) ∧
    (code = 24 → decodeGroup w = .group12A h (w.extractLsb' 32 5) (w.extractLsb' 16 16) (w.extractLsb' 0 16)) ∧
    (code = 25 → decodeGroup w = .group12B h (w.extractLsb' 32 5) (w.extractLsb' 0 16)) ∧
    (code = 26 → decodeGroup w = .group13A h) ∧
    (code = 27 → decodeGroup w = .group13B h (w.extractLsb' 32 5) (w.extractLsb' 0 16)) ∧
    (code = 28 → decodeGroup w = .group14A h (w.getLsbD 36) (w.extractLsb' 32 4) (w.extractLsb' 16 16)
        (w.extractLsb' 0 16)) ∧
    (code = 29 → decodeGroup w = .group14B h (w.getLsbD 36) (w.getLsbD 35) (w.extractLsb' 0 16)) ∧
    (code = 30 → decodeGroup w = .group15A h) ∧
    (code = 31 → decodeGroup w = .group15B h ⟨w.getLsbD 36, w.getLsbD 35, w.getLsbD 34, w.extractLsb' 32 2⟩)

/-- A command word decodes to an operation exactly when it is that operation's encoding. A word whose code is none
of the 18 is refused as an unknown command, and a word with a known code that is no encoding as an operand too
wide. The places of the operands are the model's choice (log 3). -/
def Obligations.CommandWordAcceptedExactlyWhenItIsAnEncoding : Prop :=
  ∀ w : BitVec 48,
    (∀ i, decode (.command w) = .ok i ↔ encode i = .command w) ∧
    ((w.extractLsb' 0 8).toNat ∉ ([0x00, 0x01, 0x02, 0x03, 0x04, 0x10, 0x11, 0x12, 0x20, 0x21, 0x22, 0x23, 0x24,
        0x25, 0x26, 0x27, 0x30, 0x31] : List Nat) →
      decode (.command w) = .error (.unknownCommand (w.extractLsb' 0 8))) ∧
    ((w.extractLsb' 0 8).toNat ∈ ([0x00, 0x01, 0x02, 0x03, 0x04, 0x10, 0x11, 0x12, 0x20, 0x21, 0x22, 0x23, 0x24,
        0x25, 0x26, 0x27, 0x30, 0x31] : List Nat) →
      (∃ i, decode (.command w) = .ok i) ∨ decode (.command w) = .error .operandTooWide)

/-- Words of the spec's own examples and codes of its command table decode to the operations they stand for. -/
def Obligations.SpecWordsDecode : Prop :=
  decodeTableWord 64 0xD3180554E20A5241 =
      some (.group0A ⟨0xD318, true, 10⟩ ⟨true, false, true, 0⟩ 0xE20A 0x52 0x41) ∧
    decodeTableWord 64 0xD318100083E15ABC = some (.group1A ⟨0xD318, false, 0⟩ true 0 0x3E1 0x5ABC) ∧
    decodeTableWord 64 0xD31821504E657720 =
      some (.group2A ⟨0xD318, false, 10⟩ true 0 0x4E 0x65 0x77 0x20) ∧
    decodeTableWord 64 0xD31834100066CD46 = some (.group3A ⟨0xD318, true, 0⟩ 16 0x66 0xCD46) ∧
    decodeTableWord 64 0xD3184021CBC2D963 = some (.group4A ⟨0xD318, false, 1⟩ 58849 13 37 true 3) ∧
    decodeTableWord 64 0xD318840B61232B4C = some (.group8A ⟨0xD318, true, 0⟩ 11 0x6123 0x2B4C) ∧
    decodeTableWord 8 0x00 = some .reset ∧ decodeTableWord 8 0x27 = some .uLabel

/-- With an operation as the host's next request, a step is exec of the operation the decoder reads, on the state
without that request; a word the decoder does not take is refused with its reason; an opcode-table word placed
by withFetchWord runs as the very next step; with no request the block keeps its state. The request list is the
model's (log 1, 2). -/
def Obligations.StepRunsTheDecodedOperation : Prop :=
  (∀ (s : State) (p : PortWord) (i : Instr) (rest : List Request),
        s.inbox = .op p :: rest → decode p = .ok i → step s = exec i { s with inbox := rest }) ∧
      (∀ (s : State) (p : PortWord) (e : DecodeError) (rest : List Request),
        s.inbox = .op p :: rest → decode p = .error e → step s = .refused (.undecodable e)) ∧
      (∀ (s : State) (nbits w : Nat) (i : Instr),
        decodeTableWord nbits w = some i → step (s.withFetchWord nbits w) = exec i s) ∧
      (∀ s : State, s.inbox = [] → step s = .next s)

/-- With an acknowledgement as the next request: with nothing pending it is refused; with an event whose operation
has nothing left, the latch empties and nothing else changes; with a suspended 2A or 2B, the buffer becomes
spaces but for the new segment, the tracker takes the toggle, and nothing else changes. That the acknowledgement
is a request of the inbox is the model's (log 1). -/
def Obligations.AcknowledgementRunsTheRest : Prop :=
  ∀ (s : State) (tail : List Request), s.inbox = .ack :: tail →
    (s.pending = none → step s = .refused .ackWithoutEvent) ∧
    (∀ e : Event, s.pending = some ⟨e, .nothing⟩ → step s = .next { s with inbox := tail, pending := none }) ∧
    (∀ (e : Event) (tog : Bool) (seg : BitVec 4) (c0 c1 c2 c3 : Byte),
        s.pending = some ⟨e, .radiotext4 tog seg c0 c1 c2 c3⟩ →
        ∃ t, step s = .next t ∧ t.pending = none ∧ t.inbox = tail ∧ t.rtToggle = tog ∧
          (∀ a, t.byteAt .rt a = if a = 4 * seg.toNat then c0 else if a = 4 * seg.toNat + 1 then c1
              else if a = 4 * seg.toNat + 2 then c2 else if a = 4 * seg.toNat + 3 then c3 else 0x20) ∧
          { t with inbox := s.inbox, pending := s.pending, rt := s.rt, rtToggle := s.rtToggle } = s) ∧
    (∀ (e : Event) (tog : Bool) (seg : BitVec 4) (c0 c1 : Byte),
        s.pending = some ⟨e, .radiotext2 tog seg c0 c1⟩ →
        ∃ t, step s = .next t ∧ t.pending = none ∧ t.inbox = tail ∧ t.rtToggle = tog ∧
          (∀ a, t.byteAt .rt a = if a = 2 * seg.toNat then c0 else if a = 2 * seg.toNat + 1 then c1 else 0x20) ∧
          { t with inbox := s.inbox, pending := s.pending, rt := s.rt, rtToggle := s.rtToggle } = s)

/-- On an idle block GROUP.0A completes: PI, TP, PTY, TA and MS take the group's values, DI bit 3 - seg the flag, PS
bytes 2*seg and 2*seg+1 the characters, the AF event (0, true, block C, 0) is raised when kind AF is enabled,
and nothing else changes. -/
def Obligations.Group0AUpdatesTuningAndRaisesAf : Prop :=
  ∀ (h : Head) (b : Basic) (afpair : Block) (ch0 ch1 : Byte) (s : State), s.pending = none →
    ∃ t, exec (.group0A h b afpair ch0 ch1) s = .next t ∧
      t.reg = { s.reg with pi := h.pi, tp := h.tp, pty := h.pty, ta := b.ta, ms := b.ms, di := t.reg.di } ∧
      (∀ k < 4, t.reg.di.getLsbD k = if k = 3 - b.seg.toNat then b.di else s.reg.di.getLsbD k) ∧
      (∀ a, t.byteAt .ps a = if a = 2 * b.seg.toNat then ch0 else if a = 2 * b.seg.toNat + 1 then ch1
          else s.byteAt .ps a) ∧
      t.pending = (if s.even.getLsbD 0 then some ⟨⟨.af, 0, true, afpair, 0⟩, .nothing⟩ else none) ∧
      { t.withOwn s with reg := s.reg, ps := s.ps, pending := s.pending } = s

/-- On an idle block GROUP.0B and GROUP.15B complete: PI, TP, PTY, TA and MS take the group's values and DI bit 3 -
seg the flag; 0B also writes PS bytes 2*seg and 2*seg+1; no event is raised and nothing else changes. -/
def Obligations.Group0BAnd15BUpdateTuning : Prop :=
  ∀ (h : Head) (b : Basic) (ch0 ch1 : Byte) (s : State), s.pending = none →
    (∃ t, exec (.group0B h b ch0 ch1) s = .next t ∧
      t.reg = { s.reg with pi := h.pi, tp := h.tp, pty := h.pty, ta := b.ta, ms := b.ms, di := t.reg.di } ∧
      (∀ k < 4, t.reg.di.getLsbD k = if k = 3 - b.seg.toNat then b.di else s.reg.di.getLsbD k) ∧
      (∀ a, t.byteAt .ps a = if a = 2 * b.seg.toNat then ch0 else if a = 2 * b.seg.toNat + 1 then ch1
          else s.byteAt .ps a) ∧
      { t.withOwn s with reg := s.reg, ps := s.ps } = s) ∧
    (∃ t, exec (.group15B h b) s = .next t ∧
      t.reg = { s.reg with pi := h.pi, tp := h.tp, pty := h.pty, ta := b.ta, ms := b.ms, di := t.reg.di } ∧
      (∀ k < 4, t.reg.di.getLsbD k = if k = 3 - b.seg.toNat then b.di else s.reg.di.getLsbD k) ∧
      { t.withOwn s with reg := s.reg } = s)

/-- On an idle block GROUP.1A completes and writes LI, the scalars of variants 0 to 3 and, for every variant, PIN;
GROUP.1B completes and writes PIN; beyond PI, TP and PTY nothing else changes and no event is raised. -/
def Obligations.Group1AAnd1BUpdateLabelsAndItem : Prop :=
  ∀ (h : Head) (la : Bool) (var : BitVec 3) (payload : BitVec 12) (pin : Block) (s : State), s.pending = none →
    (∃ t, exec (.group1A h la var payload pin) s = .next t ∧
      t.reg = { s.reg with 
            pi := h.pi, tp := h.tp, pty := h.pty, li := la, pin := pin,
            opc := if var = 0 then payload.extractLsb' 8 4 else s.reg.opc,
            ecc := if var = 0 then payload.extractLsb' 0 8 else s.reg.ecc,
            tmcId := if var = 1 then payload else s.reg.tmcId,
            pagId := if var = 2 then payload else s.reg.pagId,
            lang := if var = 3 then payload else s.reg.lang } ∧
      { t.withOwn s with reg := s.reg } = s) ∧
    (∃ t, exec (.group1B h pin) s = .next t ∧
      t.reg = { s.reg with pi := h.pi, tp := h.tp, pty := h.pty, pin := pin } ∧
      { t.withOwn s with reg := s.reg } = s)

/-- On an idle block GROUP.4A whose blocks C and D are zero completes with only PI, TP and PTY written, whatever the
two MJD bits of block B; with only bit 0 of block D set it is decoded, with hour 0, minute 0, offset +30 and the
time available. -/
def Obligations.Group4AZeroTimeIsSkipped : Prop :=
  ∀ (h : Head) (high : BitVec 2) (s : State), s.pending = none →
    (∃ t, exec (.group4A h (high ++ 0#15) 0 0 false 0) s = .next t ∧
      t.reg = { s.reg with pi := h.pi, tp := h.tp, pty := h.pty } ∧ { t.withOwn s with reg := s.reg } = s) ∧
    (∃ t, exec (.group4A h (high ++ 0#15) 0 0 false 1) s = .next t ∧
      t.reg = { s.reg with pi := h.pi, tp := h.tp, pty := h.pty } ∧ t.timeAvailable = true ∧ t.time.hour = 0 ∧
          t.time.minute = 0 ∧ t.time.tz = 30 ∧
      t.time.weekday = ((high.toNat : Int) * 32768 + 2) % 7 + 1 ∧
      { t.withOwn s with reg := s.reg, time := s.time, timeAvailable := s.timeAvailable } = s)

/-- On an idle block GROUP.4A with a non-zero payload and MJD at least 15079 completes: the date is the integer
formula of R162 on the MJD, the weekday (MJD + 2) mod 7 + 1, hour and minute raw, the offset sign and magnitude
times 30; the time becomes available; beyond PI, TP and PTY nothing else changes. -/
def Obligations.Group4AStoresTheTime : Prop :=
  ∀ (h : Head) (mjd : BitVec 17) (hour : BitVec 5) (minute : BitVec 6) (tzSign : Bool) (tzMag : BitVec 5) (s : State),
    s.pending = none → ¬(mjd.extractLsb' 0 15 = 0 ∧ hour = 0 ∧ minute = 0 ∧ tzSign = false ∧
        tzMag = 0) → 15079 ≤ mjd.toNat →
    let mjd' : Int := mjd.toNat
    let yp : Int := ((mjd' * 10 - 150782) * 10) / 36525
    let ys : Int := (yp * 36525) / 100
    let mp : Int := ((mjd' * 10 - 149561 - ys * 10) * 1000) / 306001
    let k : Int := if mp = 14 ∨ mp = 15 then 1 else 0
    ∃ t, exec (.group4A h mjd hour minute tzSign tzMag) s = .next t ∧
      t.reg = { s.reg with pi := h.pi, tp := h.tp, pty := h.pty } ∧ t.timeAvailable = true ∧
      t.time =
        { minute := minute, hour := hour, day := mjd' - 14956 - ys - (mp * 306001) / 10000,
          month := mp - 1 - 12 * k, year := 1900 + yp + k, weekday := (mjd' + 2) % 7 + 1,
          tz := if tzSign then -(30 * (tzMag.toNat : Int)) else 30 * (tzMag.toNat : Int) } ∧
      { t.withOwn s with reg := s.reg, time := s.time, timeAvailable := s.timeAvailable } = s

/-- On an idle block GROUP.4A with a non-zero payload and MJD below 15079 completes: hour, minute, offset and
weekday as the rule says and the time available; the statement says nothing of year, month and day; beyond PI,
TP and PTY nothing else changes. -/
def Obligations.Group4ABelow15079LeavesTheDateOpen : Prop :=
  ∀ (h : Head) (mjd : BitVec 17) (hour : BitVec 5) (minute : BitVec 6) (tzSign : Bool) (tzMag : BitVec 5) (s : State),
    s.pending = none → ¬(mjd.extractLsb' 0 15 = 0 ∧ hour = 0 ∧ minute = 0 ∧ tzSign = false ∧
        tzMag = 0) → mjd.toNat < 15079 →
    ∃ t, exec (.group4A h mjd hour minute tzSign tzMag) s = .next t ∧
      t.reg = { s.reg with pi := h.pi, tp := h.tp, pty := h.pty } ∧ t.timeAvailable = true ∧
      t.time =
        { t.time with
          minute := minute, hour := hour, weekday := ((mjd.toNat : Int) + 2) % 7 + 1,
          tz := if tzSign then -(30 * (tzMag.toNat : Int)) else 30 * (tzMag.toNat : Int) } ∧
      { t.withOwn s with reg := s.reg, time := s.time, timeAvailable := s.timeAvailable } = s

/-- MJD 15079 is 1900-03-01, every later MJD up to 88127 gives the Gregorian day after its predecessor's, MJD 88127
is 2100-02-28, and MJD 88128 gives 2100-02-29, which the Gregorian calendar does not have. -/
def Obligations.DateIsGregorianUntil2100 : Prop :=
  (yearOfMjd 15079 = 1900 ∧ monthOfMjd 15079 = 3 ∧ dayOfMjd 15079 = 1) ∧
    (∀ m : Nat, 15079 ≤ m → m < 88127 →
      (yearOfMjd (m + 1), monthOfMjd (m + 1), dayOfMjd (m + 1)) =
        dayAfter (yearOfMjd m) (monthOfMjd m) (dayOfMjd m)) ∧
    (yearOfMjd 88127 = 2100 ∧ monthOfMjd 88127 = 2 ∧ dayOfMjd 88127 = 28) ∧
    (yearOfMjd 88128 = 2100 ∧ monthOfMjd 88128 = 2 ∧ dayOfMjd 88128 = 29 ∧ daysInMonth 2100 2 = 28)

/-- For every MJD from 15079 to 131071 the differences of the date formula are at least the rule's bounds, mp is 4
to 15, the month 1 to 12, the day 1 to 31 and the year 1900 to 2217; MJD 15079 gives 1900-03-01. -/
def Obligations.DateRangesHold : Prop :=
  (∀ m : Nat, 15079 ≤ m → m ≤ 131071 →
      150782 + 8 ≤ m * 10 ∧ 149561 + dateYs m * 10 + 1221 ≤ m * 10 ∧
      14956 + dateYs m + dateMp m * 306001 / 10000 ≤ m ∧ 1 + 12 * dateK m ≤ dateMp m ∧
      4 ≤ dateMp m ∧ dateMp m ≤ 15 ∧ 1 ≤ monthOfMjd m ∧ monthOfMjd m ≤ 12 ∧ 1 ≤ dayOfMjd m ∧ dayOfMjd m ≤ 31 ∧
      1900 ≤ yearOfMjd m ∧ yearOfMjd m ≤ 2217) ∧
    (yearOfMjd 15079, monthOfMjd 15079, dayOfMjd 15079) = (1900, 3, 1)

/-- On an idle block GROUP.7A, 9A, 13A and 15A complete with PI, TP and PTY written, every other piece of state
unchanged and no event raised. -/
def Obligations.NoOpGroupsDoTheCommonUpdate : Prop :=
  ∀ (h : Head) (s : State), s.pending = none →
    ∀ i ∈ [Instr.group7A h, Instr.group9A h, Instr.group13A h, Instr.group15A h],
      ∃ t, exec i s = .next t ∧ t.reg = { s.reg with pi := h.pi, tp := h.tp, pty := h.pty } ∧
          { t.withOwn s with reg := s.reg } = s

/-- On an idle block GROUP.2A completes. Without a flip bytes 4*seg to 4*seg+3 of RT take the characters. On a flip
with kind RT disabled every other byte becomes a space and the tracker takes the toggle. On a flip with kind RT
enabled the event (0, true, 0, 0) waits while RT and the tracker still hold the old values, and the
acknowledgement does the clear, the tracker and the segment write. Nothing else but PI, TP and PTY changes. -/
def Obligations.Group2AReassemblesRadiotext : Prop :=
  ∀ (h : Head) (tog : Bool) (seg : BitVec 4) (ch0 ch1 ch2 ch3 : Byte) (s : State), s.pending = none →
    ∃ t, exec (.group2A h tog seg ch0 ch1 ch2 ch3) s = .next t ∧
        t.reg = { s.reg with pi := h.pi, tp := h.tp, pty := h.pty } ∧
      (tog = s.rtToggle →
        (∀ a, t.byteAt .rt a = if a = 4 * seg.toNat then ch0 else if a = 4 * seg.toNat + 1 then ch1
            else if a = 4 * seg.toNat + 2 then ch2 else if a = 4 * seg.toNat + 3 then ch3 else s.byteAt .rt a) ∧
        { t.withOwn s with reg := s.reg, rt := s.rt } = s) ∧
      (tog ≠ s.rtToggle → s.even.getLsbD 5 = false → t.rtToggle = tog ∧
        (∀ a, t.byteAt .rt a = if a = 4 * seg.toNat then ch0 else if a = 4 * seg.toNat + 1 then ch1
            else if a = 4 * seg.toNat + 2 then ch2 else if a = 4 * seg.toNat + 3 then ch3 else 0x20) ∧
        { t.withOwn s with reg := s.reg, rt := s.rt, rtToggle := s.rtToggle } = s) ∧
      (tog ≠ s.rtToggle → s.even.getLsbD 5 = true →
        (∃ r, t.pending = some ⟨⟨.rt, 0, true, 0, 0⟩, r⟩) ∧
            { t.withOwn s with reg := s.reg, pending := s.pending } = s ∧
        ∃ u, acknowledge t = .next u ∧ u.pending = none ∧ u.rtToggle = tog ∧
          (∀ a, u.byteAt .rt a = if a = 4 * seg.toNat then ch0 else if a = 4 * seg.toNat + 1 then ch1
              else if a = 4 * seg.toNat + 2 then ch2 else if a = 4 * seg.toNat + 3 then ch3 else 0x20) ∧
          { u.withOwn t with pending := t.pending, rt := t.rt, rtToggle := t.rtToggle } = t)

/-- As GROUP.2A with two characters at bytes 2*seg and 2*seg+1 and the event (0, false, 0, 0); a flip clears all 64
bytes. -/
def Obligations.Group2BReassemblesRadiotext : Prop :=
  ∀ (h : Head) (tog : Bool) (seg : BitVec 4) (ch0 ch1 : Byte) (s : State), s.pending = none →
    ∃ t, exec (.group2B h tog seg ch0 ch1) s = .next t ∧ t.reg = { s.reg with pi := h.pi, tp := h.tp, pty := h.pty } ∧
      (tog = s.rtToggle →
        (∀ a, t.byteAt .rt a = if a = 2 * seg.toNat then ch0 else if a = 2 * seg.toNat + 1 then ch1
            else s.byteAt .rt a) ∧
        { t.withOwn s with reg := s.reg, rt := s.rt } = s) ∧
      (tog ≠ s.rtToggle → s.even.getLsbD 5 = false → t.rtToggle = tog ∧
        (∀ a, t.byteAt .rt a = if a = 2 * seg.toNat then ch0 else if a = 2 * seg.toNat + 1 then ch1 else 0x20) ∧
        { t.withOwn s with reg := s.reg, rt := s.rt, rtToggle := s.rtToggle } = s) ∧
      (tog ≠ s.rtToggle → s.even.getLsbD 5 = true →
        (∃ r, t.pending = some ⟨⟨.rt, 0, false, 0, 0⟩, r⟩) ∧
            { t.withOwn s with reg := s.reg, pending := s.pending } = s ∧
        ∃ u, acknowledge t = .next u ∧ u.pending = none ∧ u.rtToggle = tog ∧
          (∀ a, u.byteAt .rt a = if a = 2 * seg.toNat then ch0 else if a = 2 * seg.toNat + 1 then ch1 else 0x20) ∧
          { u.withOwn t with pending := t.pending, rt := t.rt, rtToggle := t.rtToggle } = t)

/-- On an idle block GROUP.10A completes: bytes 4*seg to 4*seg+3 of PTYN take the characters, every other byte is
kept or, on a flip of its own tracker, becomes a space; the tracker takes the toggle; no event is raised and
beyond PI, TP and PTY nothing else changes. -/
def Obligations.Group10AReassemblesTheTypeName : Prop :=
  ∀ (h : Head) (tog : Bool) (seg : BitVec 1) (ch0 ch1 ch2 ch3 : Byte) (s : State), s.pending = none →
    ∃ t, exec (.group10A h tog seg ch0 ch1 ch2 ch3) s = .next t ∧
        t.reg = { s.reg with pi := h.pi, tp := h.tp, pty := h.pty } ∧ t.ptynToggle = tog ∧
      (∀ a, t.byteAt .ptyn a = if a = 4 * seg.toNat then ch0 else if a = 4 * seg.toNat + 1 then ch1
          else if a = 4 * seg.toNat + 2 then ch2 else if a = 4 * seg.toNat + 3 then ch3
          else if tog = s.ptynToggle then s.byteAt .ptyn a else 0x20) ∧
      { t.withOwn s with reg := s.reg, ptyn := s.ptyn, ptynToggle := s.ptynToggle } = s

/-- On an idle block GROUP.3A completes: the slot is the first that matches in the order ERT, RTP, IRDS, TMC, and
TMC for AID 0 announced for group 8A; that slot takes all three values and the others are kept; the event (cig,
true, message, AID) of kind KIND_3A is raised when enabled, whether or not a slot was selected; beyond PI, TP
and PTY nothing else changes. -/
def Obligations.Group3AWritesTheSelectedSlot : Prop :=
  ∀ (h : Head) (cig : BitVec 5) (msg aid : Block) (s : State), s.pending = none →
    let k : Option SlotId :=
      if aid = Config.aidErt then some .ert
      else if aid = Config.aidRtp then some .rtp
      else if aid = Config.aidIrds then some .irds
      else if aid ∈ [Config.aidTmc0, Config.aidTmc1, Config.aidTmc2] then some .tmc
      else if aid = 0x0000 ∧ cig = 16 then some .tmc
      else none
    let kind : EventKind := match Config.kind3A with | .oda => .oda | .aid => .aid
    let bit : Nat := match Config.kind3A with | .oda => 3 | .aid => 2
    ∃ t, exec (.group3A h cig msg aid) s = .next t ∧ t.reg = { s.reg with pi := h.pi, tp := h.tp, pty := h.pty } ∧
      (∀ j, getSlot t.slot j = if k = some j then ⟨cig, msg, aid⟩ else getSlot s.slot j) ∧
      t.pending = (if s.even.getLsbD bit then some ⟨⟨kind, cig.setWidth 8, true, msg, aid⟩, .nothing⟩ else none) ∧
      { t.withOwn s with reg := s.reg, slot := s.slot, pending := s.pending } = s

/-- On an idle block GROUP.6A, 11A and 12A raise ODA (sub, true, block C, block D) and GROUP.3B, 4B, 6B, 7B, 8B, 9B,
10B, 11B, 12B and 13B raise ODA (sub, false, 0, block D) when kind ODA is enabled; each completes and beyond PI,
TP and PTY nothing else changes. -/
def Obligations.GenericCarriersRaiseOda : Prop :=
  ∀ (h : Head) (sub : BitVec 5) (c d : Block) (s : State), s.pending = none →
    (∀ i ∈ [Instr.group6A h sub c d, Instr.group11A h sub c d, Instr.group12A h sub c d],
      ∃ t, exec i s = .next t ∧ t.reg = { s.reg with pi := h.pi, tp := h.tp, pty := h.pty } ∧
        t.pending = (if s.even.getLsbD 3 then some ⟨⟨.oda, sub.setWidth 8, true, c, d⟩, .nothing⟩ else none) ∧
        { t.withOwn s with reg := s.reg, pending := s.pending } = s) ∧
    (∀ i ∈
        [Instr.group3B h sub d, Instr.group4B h sub d, Instr.group6B h sub d, Instr.group7B h sub d,
        Instr.group8B h sub d, Instr.group9B h sub d, Instr.group10B h sub d, Instr.group11B h sub d,
        Instr.group12B h sub d, Instr.group13B h sub d],
      ∃ t, exec i s = .next t ∧ t.reg = { s.reg with pi := h.pi, tp := h.tp, pty := h.pty } ∧
        t.pending = (if s.even.getLsbD 3 then some ⟨⟨.oda, sub.setWidth 8, false, 0, d⟩, .nothing⟩ else none) ∧
        { t.withOwn s with reg := s.reg, pending := s.pending } = s)

/-- On an idle block GROUP.5A raises TDC (sub, true, block C, block D), GROUP.5B TDC (sub, false, 0, block D) and
GROUP.8A TMC (sub, true, block C, block D), each when its kind is enabled; each completes and beyond PI, TP and
PTY nothing else changes. -/
def Obligations.DataChannelAndTmcCarriersRaiseTheirEvents : Prop :=
  ∀ (h : Head) (sub : BitVec 5) (c d : Block) (s : State), s.pending = none →
    (∃ t, exec (.group5A h sub c d) s = .next t ∧ t.reg = { s.reg with pi := h.pi, tp := h.tp, pty := h.pty } ∧
      t.pending = (if s.even.getLsbD 1 then some ⟨⟨.tdc, sub.setWidth 8, true, c, d⟩, .nothing⟩ else none) ∧
      { t.withOwn s with reg := s.reg, pending := s.pending } = s) ∧
    (∃ t, exec (.group5B h sub d) s = .next t ∧ t.reg = { s.reg with pi := h.pi, tp := h.tp, pty := h.pty } ∧
      t.pending = (if s.even.getLsbD 1 then some ⟨⟨.tdc, sub.setWidth 8, false, 0, d⟩, .nothing⟩ else none) ∧
      { t.withOwn s with reg := s.reg, pending := s.pending } = s) ∧
    (∃ t, exec (.group8A h sub c d) s = .next t ∧ t.reg = { s.reg with pi := h.pi, tp := h.tp, pty := h.pty } ∧
      t.pending = (if s.even.getLsbD 6 then some ⟨⟨.tmc, sub.setWidth 8, true, c, d⟩, .nothing⟩ else none) ∧
      { t.withOwn s with reg := s.reg, pending := s.pending } = s)

/-- On an idle block GROUP.14A completes: TP and PI of the other network always; variants 0 to 3 two bytes of its PS
at 2*var, variant 12 its linkage word, variant 13 its PTY and TA, no other variant anything more; variants 4, 5
to 8 and 9 raise EON (1, 2 or 3, true, block C, block D) when kind EON is enabled; beyond PI, TP and PTY nothing
else changes. -/
def Obligations.Group14AWritesTheOtherNetwork : Prop :=
  ∀ (h : Head) (tpon : Bool) (var : BitVec 4) (payload pion : Block) (s : State), s.pending = none →
    ∃ t, exec (.group14A h tpon var payload pion) s = .next t ∧
        t.reg = { s.reg with pi := h.pi, tp := h.tp, pty := h.pty } ∧
      t.eon =
        { s.eon with
          tp := tpon, pi := pion, ps := t.eon.ps,
          li := if var = 12 then payload ++ pion else s.eon.li,
          pty := if var = 13 then payload.extractLsb' 11 5 else s.eon.pty,
          ta := if var = 13 then payload.getLsbD 0 else s.eon.ta } ∧
      (var.toNat ≤ 3 →
        (∀ a, t.byteAt .eonPs a = if a = 2 * var.toNat then payload.extractLsb' 8 8
            else if a = 2 * var.toNat + 1 then payload.extractLsb' 0 8 else s.byteAt .eonPs a)) ∧
      (3 < var.toNat → t.eon.ps = s.eon.ps) ∧
      t.pending =
        (if 4 ≤ var.toNat ∧ var.toNat ≤ 9 ∧ s.even.getLsbD 4 = true then
          some ⟨⟨.eon, if var.toNat = 4 then 1 else if var.toNat ≤ 8 then 2 else 3, true, payload, pion⟩, .nothing⟩
        else none) ∧
      { t.withOwn s with reg := s.reg, eon := s.eon, pending := s.pending } = s

/-- On an idle block GROUP.14B completes with the other network's TP, TA and PI written; beyond PI, TP and PTY
nothing else changes and no event is raised. -/
def Obligations.Group14BWritesTheOtherNetwork : Prop :=
  ∀ (h : Head) (tpon taon : Bool) (pion : Block) (s : State), s.pending = none →
    ∃ t, exec (.group14B h tpon taon pion) s = .next t ∧ t.reg = { s.reg with pi := h.pi, tp := h.tp, pty := h.pty } ∧
      t.eon = { s.eon with tp := tpon, ta := taon, pi := pion } ∧
      { t.withOwn s with reg := s.reg, eon := s.eon } = s

/-- For every group on an idle block and every event mask, the group completes under both masks, and carried to its
end (the event acknowledged if one waits) it leaves the same state but for the mask itself. -/
def Obligations.DisabledEventChangesNoWrite : Prop :=
  ∀ (i : Instr) (s : State) (m : BitVec 7), isGroup i = true → s.pending = none →
    ∃ t u, exec i s = .next t ∧ exec i { s with even := m } = .next u ∧
      { settled u with even := s.even } = settled t

/-- With an event pending, every GROUP, RESET and EVCFG is refused. Every other operation with operands in its
domain, at a legal cursor, completes, keeps the event waiting, and changes nothing of the spec's state outside
the container and the cursor. -/
def Obligations.EventPointAdmitsQueriesAndUnits : Prop :=
  ∀ (i : Instr) (s : State) (p : Pending), s.pending = some p →
    (needsIdle i = true → exec i s = .refused .eventPending) ∧
    (needsIdle i = false → i.wellFormed = true → legalCursor s.cur = true →
      ∃ t, exec i s = .next t ∧ t.pending = some p ∧ { t.withOwn s with cont := s.cont, cur := s.cur } = s)

/-- If a step changes the event latch, then either the request was a group word and the latch was empty and now
holds one event, or it was an acknowledgement and the latch held an event and is now empty. -/
def Obligations.EventsComeFromGroupsAlone : Prop :=
  ∀ s t : State, step s = .next t → t.pending ≠ s.pending →
    (∃ w rest, s.inbox = .op (.group w) :: rest ∧ s.pending = none ∧ t.pending ≠ none) ∨
    (∃ rest, s.inbox = .ack :: rest ∧ s.pending ≠ none ∧ t.pending = none)

/-- An operation outside the unpacker has the same outcome whatever the container and the cursor hold, and hands
them through unchanged. An unpacker operation has the same outcome on any two states that agree on the container
and the cursor, and changes only those two and the answer to the host. -/
def Obligations.UnpackerAndDispatcherAreIndependent : Prop :=
  ∀ (i : Instr) (s : State),
    (isUnpacker i = false → ∀ (c : Cont) (k : Cursor),
      nextState? (exec i { s with cont := c, cur := k }) =
          (nextState? (exec i s)).map (fun t => { t with cont := c, cur := k }) ∧
        refusal? (exec i { s with cont := c, cur := k }) = refusal? (exec i s)) ∧
    (isUnpacker i = true → ∀ s' : State, s'.cont = s.cont → s'.cur = s.cur →
      nextState? (exec i s') =
          (nextState? (exec i s)).map (fun t => { s' with cont := t.cont, cur := t.cur, result := t.result }) ∧
        refusal? (exec i s') = refusal? (exec i s))

/-- Every one of the 32 groups completes on an idle block. Whenever an operation completes, every register outside
the list its rule gives is unchanged, and stays so when a suspended group is carried to its end. -/
def Obligations.RegistersHaveOnlyTheirWriters : Prop :=
  ∀ (i : Instr) (s : State),
    (isGroup i = true → s.pending = none → ∃ t, exec i s = .next t) ∧
    (∀ t, exec i s = .next t → ∀ r : Reg, r ∉ writtenBy i →
      sameReg r s t ∧ (isGroup i = true → sameReg r s (settled t)))

/-- If a step changes a byte of PS, the request was RESET, or a 0A or 0B group whose segment covers that byte, which
now holds the group's character; if it changes a byte of EON.PS, the request was RESET, or a 14A group of
variant 0 to 3 that covers that byte. -/
def Obligations.NameBytesChangeOnlyBySegmentWriteOrReset : Prop :=
  ∀ (s t : State) (a : Nat), step s = .next t →
    (t.byteAt .ps a ≠ s.byteAt .ps a →
      ∃ p i rest, s.inbox = .op p :: rest ∧ decode p = .ok i ∧
        (i = .reset ∨
          (∃ h b afpair ch0 ch1, i = .group0A h b afpair ch0 ch1 ∧ ((a = 2 * b.seg.toNat ∧
              t.byteAt .ps a = ch0) ∨ (a = 2 * b.seg.toNat + 1 ∧ t.byteAt .ps a = ch1))) ∨
          (∃ h b ch0 ch1, i = .group0B h b ch0 ch1 ∧ ((a = 2 * b.seg.toNat ∧
              t.byteAt .ps a = ch0) ∨ (a = 2 * b.seg.toNat + 1 ∧ t.byteAt .ps a = ch1))))) ∧
    (t.byteAt .eonPs a ≠ s.byteAt .eonPs a →
      ∃ p i rest, s.inbox = .op p :: rest ∧ decode p = .ok i ∧
        (i = .reset ∨
          (∃ h tpon var payload pion, i = .group14A h tpon var payload pion ∧ var.toNat ≤ 3 ∧ ((a = 2 * var.toNat ∧
              t.byteAt .eonPs a = payload.extractLsb' 8 8) ∨ (a = 2 * var.toNat + 1 ∧
              t.byteAt .eonPs a = payload.extractLsb' 0 8)))))

/-- If a step takes the time-available flag from 1 to 0, the request was RESET; if it changes a time field, the
request was a GROUP.4A and the flag is 1 after it. -/
def Obligations.TimeStaysAvailableUntilReset : Prop :=
  ∀ s t : State, step s = .next t →
    (s.timeAvailable = true → t.timeAvailable = false →
      ∃ p rest, s.inbox = .op p :: rest ∧ decode p = .ok .reset) ∧
    (t.time ≠ s.time →
      t.timeAvailable = true ∧
        ∃ p rest h mjd hour minute tzSign tzMag, s.inbox = .op p :: rest ∧
          decode p = .ok (.group4A h mjd hour minute tzSign tzMag))

/-- Once S.EON.PIN is 0 every step keeps it 0. The spec warns that the real design may write it: this is a statement
about the model under the assumption of log 10. -/
def Obligations.EonPinHasNoWriter : Prop :=
  ∀ s t : State, step s = .next t → s.eon.pin = 0 → t.eon.pin = 0

/-- For every state with the invariant, if a step answers a next state, that state has it: the four byte memories in
canonical form inside their spaces, a legal cursor, a pending event of a shape its kind allows and of an enabled
kind, slots that hold only their own application ids or 0, and time fields in range once the time is available. -/
def Obligations.InvKeptByEveryStep : Prop :=
  ∀ s t : State, Inv s → step s = .next t → Inv t

/-- The invariant of InvKeptByEveryStep holds in the reset state. -/
def Obligations.InvHoldsAtReset : Prop :=
  Inv State.reset

/-- On an idle block RESET completes; after it, and at power-on, every scalar register, slot and other-network field
is 0, the three text buffers are spaces, EON.PS is zeros, both trackers and the time-available flag are 0; RESET
leaves the time fields, the event mask, the container, the cursor and the latch as they are. -/
def Obligations.ResetAndPowerOnValues : Prop :=
  ∀ s : State, s.pending = none →
    ∃ t, exec .reset s = .next t ∧
      (∀ u ∈ [t, State.reset],
        u.reg = ⟨0, false, 0, false, false, 0, 0, false, 0, 0, 0, 0, 0⟩ ∧
        (∀ k, getSlot u.slot k = ⟨0, 0, 0⟩) ∧
        u.eon.pi = 0 ∧ u.eon.tp = false ∧ u.eon.ta = false ∧ u.eon.pty = 0 ∧ u.eon.pin = 0 ∧ u.eon.li = 0 ∧
        (∀ a, u.byteAt .ps a = 0x20 ∧ u.byteAt .ptyn a = 0x20 ∧ u.byteAt .rt a = 0x20 ∧ u.byteAt .eonPs a = 0x00) ∧
        u.rtToggle = false ∧ u.ptynToggle = false ∧ u.timeAvailable = false) ∧
      { t.withOwn s with
          reg := s.reg, ps := s.ps, ptyn := s.ptyn, rt := s.rt,
          slot := s.slot, eon := s.eon, rtToggle := s.rtToggle, ptynToggle := s.ptynToggle,
          timeAvailable := s.timeAvailable } = s

/-- For GROUP.0A, 0B, 1A, 1B, 3A, 14A, 14B, 15B and a 4A with MJD 15079 or later, on a sound idle block: the second
copy, presented after the first is carried to its end, completes, leaves the same state and raises the same
event. A 4A with a smaller MJD is left out, because its date is open. -/
def Obligations.RepeatedOverwritingGroupLeavesTheSameState : Prop :=
  ∀ (i : Instr) (s t : State), onlyOverwrites i = true → Inv s → s.pending = none → exec i s = .next t →
    ∃ u, exec i (settled t) = .next u ∧ settled u = settled t ∧ u.pending = t.pending

/-- At every legal cursor U.READ of 1 to 16 bits completes: the answer is the next size stream bits as a number,
shifted to the top of 16 bits, with zeros past the stream's end; the cursor then stands at the position after
them, or at EOF; nothing else changes. With sliceIndex 6, whatever bitIndex, it answers 0 and changes nothing. A
size of 0 or above 16 is refused. -/
def Obligations.ReadIsTheStream : Prop :=
  ∀ (size : BitVec 5) (s : State),
    (size.toNat = 0 ∨ 16 < size.toNat → exec (.uRead size) s = .refused .badReadSize) ∧
    (1 ≤ size.toNat → size.toNat ≤ 16 → legalCursor s.cur = true →
      ∃ t r, exec (.uRead size) s = .next t ∧ t.result = .bits r ∧
        r.toNat = streamNumber s.cont (position s.cur) size.toNat * 2 ^ (16 - size.toNat) ∧
        t.cur = cursorAt (position s.cur + size.toNat) ∧
        { t.withOwn s with cur := s.cur } = s) ∧
    (1 ≤ size.toNat → size.toNat ≤ 16 → s.cur.sliceIndex = 6 →
      ∃ t, exec (.uRead size) s = .next t ∧ t.result = .bits 0 ∧ t.withOwn s = s)

/-- At every legal cursor, and at sliceIndex 6 with any bitIndex, U.LABEL completes: the type is the next 4 stream
bits; type 15 ends the stream with value 0; any other type is followed by a value of its width; type 0 with
value 0 ends the stream; otherwise the cursor stands behind the value; ok is false exactly when the cursor is
then at EOF; nothing else changes. -/
def Obligations.LabelReadsTheStream : Prop :=
  ∀ s : State, legalCursor s.cur = true ∨ s.cur.sliceIndex = 6 →
    let p := position s.cur
    let type := streamNumber s.cont p 4
    let value := if type = 15 then 0 else streamNumber s.cont (p + 4) (widthOfType type)
    ∃ t, exec .uLabel s = .next t ∧
      t.cur =
        (if type = 15 ∨ (type = 0 ∧ value = 0) then ⟨0, 6⟩ else cursorAt (p + 4 + widthOfType type)) ∧
      t.result = .label (t.cur.sliceIndex != 6) (BitVec.ofNat 4 type) (BitVec.ofNat 16 value) ∧
      { t.withOwn s with cur := s.cur } = s

/-- At every legal cursor with seven zero bits next in the stream, U.LABEL completes with ok false, type 0, value 0
and the cursor at EOF. -/
def Obligations.SevenZeroBitsEndTheStream : Prop :=
  ∀ s : State, legalCursor s.cur = true → streamNumber s.cont (position s.cur) 7 = 0 →
    ∃ t, exec .uLabel s = .next t ∧ t.result = .label false 0 0 ∧ t.cur = ⟨0, 6⟩ ∧
        { t.withOwn s with cur := s.cur } = s

/-- With the cursor at EOF (sliceIndex 6, whatever bitIndex), U.READ of every legal size answers 0 and leaves
everything as it is; U.LABEL answers (false, 0, 0) and leaves the cursor at (0, 6) and everything else as it is. -/
def Obligations.EofIsSticky : Prop :=
  ∀ s : State, s.cur.sliceIndex = 6 →
    (∀ size : BitVec 5, 1 ≤ size.toNat → size.toNat ≤ 16 →
      ∃ t, exec (.uRead size) s = .next t ∧ t.result = .bits 0 ∧ t.withOwn s = s) ∧
    (∃ t, exec .uLabel s = .next t ∧ t.result = .label false 0 0 ∧ t.cur = ⟨0, 6⟩ ∧
        { t.withOwn s with cur := s.cur } = s)

/-- The model's deduction from R42, log 8: in a state whose cursor has sliceIndex 0 with a bitIndex other than 0, or
sliceIndex 5 or 7, U.READ of every legal size and U.LABEL are refused. The spec marks the value as refused and
gives the refusal in a rule of its own for U.SETCUR only. No run reaches such a state, and the invariant rules
it out: the statement says only that the model stops there. -/
def Obligations.IllegalCursorIsRefused : Prop :=
  ∀ s : State,
    (s.cur.sliceIndex = 0 ∧ s.cur.bitIndex ≠ 0) ∨ s.cur.sliceIndex = 5 ∨ s.cur.sliceIndex = 7 →
    (∀ size : BitVec 5, 1 ≤ size.toNat → size.toNat ≤ 16 → exec (.uRead size) s = .refused .illegalCursor) ∧
    exec .uLabel s = .refused .illegalCursor

/-- From a legal cursor, every operation but U.RESTART, U.CLEAR and U.SETCUR that completes leaves the cursor at the
same or a later stream position. -/
def Obligations.CursorNeverMovesBack : Prop :=
  ∀ (i : Instr) (s t : State), movesCursorBack i = false → legalCursor s.cur = true → exec i s = .next t →
    position s.cur ≤ position t.cur

/-- In every state U.CLEAR completes with every slice 0 and the cursor fresh, U.LOAD with its slice the chunk
widened by zeros and the others kept, U.RESTART with the cursor fresh and the container kept; nothing else
changes. -/
def Obligations.ContainerSetup : Prop :=
  ∀ s : State,
    (∃ t, exec .uClear s = .next t ∧ (∀ j < 4, contSlice t.cont j = 0) ∧ t.cur = ⟨0, 0⟩ ∧
      { t.withOwn s with cont := s.cont, cur := s.cur } = s) ∧
    (∀ (i : BitVec 2) (chunk : BitVec 28), ∃ t, exec (.uLoad i chunk) s = .next t ∧
      (∀ j < 4, contSlice t.cont j = if j = i.toNat then chunk.setWidth 32 else contSlice s.cont j) ∧
      { t.withOwn s with cont := s.cont } = s) ∧
    (∃ t, exec .uRestart s = .next t ∧ t.cur = ⟨0, 0⟩ ∧ { t.withOwn s with cur := s.cur } = s)

/-- In every state U.SETCUR of a legal cursor word completes with that cursor and nothing else changed, and of an
illegal one is refused. -/
def Obligations.SetCursorTakesLegalWords : Prop :=
  ∀ (c : BitVec 8) (s : State),
    let b := (c.extractLsb' 3 5).toNat
    let i := (c.extractLsb' 0 3).toNat
    if (i = 0 ∧ b = 0) ∨ (1 ≤ i ∧ i ≤ 4) ∨ (i = 6 ∧ b = 0) then
      ∃ t, exec (.uSetCur c) s = .next t ∧ t.cur = ⟨c.extractLsb' 3 5, c.extractLsb' 0 3⟩ ∧
          { t.withOwn s with cur := s.cur } = s
    else exec (.uSetCur c) s = .refused .badCursorWord

/-- In every state U.GLUE completes: stream bit p is bit 27 - p mod 28 of old slice p div 28 for p below 112 and 0
from there on; slice by slice it is the shift-and-join formula; bits 31:28 of the old slices take no part;
nothing else changes. -/
def Obligations.GluePacksTheChunks : Prop :=
  ∀ s : State, ∃ t, exec .uGlue s = .next t ∧
    (∀ p < 128, streamBit t.cont p =
      if p < 112 then ((contSlice s.cont (p / 28)).getLsbD (27 - p % 28)).toNat else 0) ∧
    t.cont.c0 = (s.cont.c0 <<< 4) ||| ((s.cont.c1 &&& 0x0FFFFFFF) >>> 24) ∧
    t.cont.c1 = (s.cont.c1 <<< 8) ||| ((s.cont.c2 &&& 0x0FFFFFFF) >>> 20) ∧
    t.cont.c2 = (s.cont.c2 <<< 12) ||| ((s.cont.c3 &&& 0x0FFFFFFF) >>> 16) ∧
    t.cont.c3 = s.cont.c3 <<< 16 ∧
    { t.withOwn s with cont := s.cont } = s

/-- In every state U.FLT completes. If the top 6 bits of its word are FLT_MAGIC it answers the two fields of the
word and the 16 bits shifted out, and each slice takes its low half and the next slice's high half; otherwise it
answers zeros and the container is kept. Nothing else changes. -/
def Obligations.FltShiftsTheStream : Prop :=
  ∀ (w : Block) (s : State),
    (w.extractLsb' 10 6 = Config.fltMagic →
      ∃ t, exec (.uFlt w) s = .next t ∧
        t.result = .flt true (w.extractLsb' 6 4) (w.extractLsb' 0 6) (s.cont.c0.extractLsb' 16 16) ∧
        t.cont.c0 = (s.cont.c0 <<< 16) ||| (s.cont.c1 >>> 16) ∧
        t.cont.c1 = (s.cont.c1 <<< 16) ||| (s.cont.c2 >>> 16) ∧
        t.cont.c2 = (s.cont.c2 <<< 16) ||| (s.cont.c3 >>> 16) ∧
        t.cont.c3 = s.cont.c3 <<< 16 ∧
        (∀ p, streamBit t.cont p = streamBit s.cont (p + 16)) ∧
        { t.withOwn s with cont := s.cont } = s) ∧
    (w.extractLsb' 10 6 ≠ Config.fltMagic →
      ∃ t, exec (.uFlt w) s = .next t ∧ t.result = .flt false 0 0 0 ∧ t.withOwn s = s)

/-- In every state C.DECRYPTX completes and answers ((xorValue << startBit) ^ loc) rotated left by rotateAmount over
16 bits; C.DECRYPT completes and answers the same with key[15:8], key[7:4] and key[3:0]; a key with xorValue 0
and rotateAmount 0 is the identity; no state changes. -/
def Obligations.DecryptIsXorThenRotate : Prop :=
  ∀ (loc : Block) (xorValue : BitVec 8) (startBit rotateAmount : BitVec 4) (key : Block) (s : State),
    (∃ t, exec (.cDecryptX loc xorValue startBit rotateAmount) s = .next t ∧ t.withOwn s = s ∧
      t.result =
        .decrypted (((xorValue.setWidth 16 <<< startBit.toNat) ^^^ loc).rotateLeft rotateAmount.toNat)) ∧
    (∃ t, exec (.cDecrypt loc key) s = .next t ∧ t.withOwn s = s ∧
      t.result =
        .decrypted
          ((((key.extractLsb' 8 8).setWidth 16 <<< (key.extractLsb' 4 4).toNat) ^^^ loc).rotateLeft
            (key.extractLsb' 0 4).toNat) ∧
      (key.extractLsb' 8 8 = 0 → key.extractLsb' 0 4 = 0 → t.result = .decrypted loc))

/-- For every key the cipher is a bijection on 16-bit words, undone on both sides by rotating right and taking the
mask off; and DECRYPT(a ^ b, k) = DECRYPT(a, k) ^ DECRYPT(b, 00 with the low byte of k). -/
def Obligations.CipherIsALinearBijection : Prop :=
  ∀ key : Block,
    let m : Block := (key.extractLsb' 8 8).setWidth 16 <<< (key.extractLsb' 4 4).toNat
    let r := (key.extractLsb' 0 4).toNat
    Function.Bijective (fun loc => cipher loc key) ∧
    (∀ loc, (cipher loc key).rotateRight r ^^^ m = loc) ∧
    (∀ out, cipher (out.rotateRight r ^^^ m) key = out) ∧
    (∀ a b, cipher (a ^^^ b) key = cipher a key ^^^ cipher b (key &&& 0x00FF))

/-- Any key that inverts k has the complementary rotate and the mask of k rotated with the data; such a key exists
exactly when the set bits of that rotated mask lie within 8 neighbouring positions; with rotateAmount 0 every
key is its own inverse. -/
def Obligations.KeyInversionCondition : Prop :=
  ∀ key : Block,
    let m (k : Block) : Block := (k.extractLsb' 8 8).setWidth 16 <<< (k.extractLsb' 4 4).toNat
    let r (k : Block) : Nat := (k.extractLsb' 0 4).toNat
    (∀ key' : Block, (∀ x, cipher (cipher x key) key' = x) →
      r key' = (16 - r key) % 16 ∧ m key' = (m key).rotateLeft (r key)) ∧
    ((∃ key' : Block, ∀ x, cipher (cipher x key) key' = x) ↔
      ∃ p < 16, ∀ j < 16, ((m key).rotateLeft (r key)).getLsbD j = true → p ≤ j ∧ j < p + 8) ∧
    (r key = 0 → ∀ x, cipher (cipher x key) key = x)

/-- In every state C.LOOKUP completes without changing state: mode 0 answers the flat table's entry whatever the
service key; mode 1 with a service key 0 to 7 the entry of its row; mode 1 with 8 to 15 ok 0 and key 0. -/
def Obligations.KeyLookup : Prop :=
  ∀ (svc : BitVec 4) (idx : BitVec 5) (s : State),
    (∃ t, exec (.cLookup false svc idx) s = .next t ∧ t.withOwn s = s ∧
      t.result = .key true (Config.keytabFlat idx)) ∧
    (∃ t, exec (.cLookup true svc idx) s = .next t ∧ t.withOwn s = s ∧
      (svc.toNat ≤ 7 → t.result = .key true (Config.keytabSvc (BitVec.ofNat 3 svc.toNat) idx)) ∧
      (7 < svc.toNat → t.result = .key false 0))

/-- For buf 0, 1 and 2 QTEXT completes without changing state and answers PS, PTYN or RT: the length is the offset
of the first carriage return, or the buffer's size; each byte before it is mapped by the rule's tests in order,
and each byte from there on is 0. For buf 3 QTEXT is refused. -/
def Obligations.TextQueryFiltersTheBuffer : Prop :=
  ∀ (buf : BitVec 2) (s : State),
    (buf = 3 → exec (.qText buf) s = .refused .badTextSelector) ∧
    (∀ (sp : Space) (n : Nat),
      (buf = 0 ∧ sp = .ps ∧ n = 8) ∨ (buf = 1 ∧ sp = .ptyn ∧ n = 8) ∨ (buf = 2 ∧ sp = .rt ∧ n = 64) →
      ∃ t x, exec (.qText buf) s = .next t ∧ t.result = .text x ∧ t.withOwn s = s ∧
        x.bytes.length = n ∧ x.len ≤ n ∧
        (∀ j < x.len, s.byteAt sp j ≠ 0x0D) ∧ (x.len < n → s.byteAt sp x.len = 0x0D) ∧
        (∀ j < n, x.bytes[j]? = some
          (if x.len ≤ j then 0
          else if s.byteAt sp j = 0x24 then Config.remap24
          else if s.byteAt sp j = 0x5E then Config.remap5E
          else if s.byteAt sp j = 0x60 then Config.remap60
          else if s.byteAt sp j = 0x7E then Config.remap7E
          else if 0x80 ≤ (s.byteAt sp j).toNat then Config.highTable (BitVec.ofNat 7 ((s.byteAt sp j).toNat - 0x80))
          else if s.byteAt sp j = 0x0A ∨ s.byteAt sp j = 0x0B ∨ s.byteAt sp j = 0x1F then s.byteAt sp j
          else if (s.byteAt sp j).toNat < 0x20 then 0x3F
          else if s.byteAt sp j = 0x7F then 0x3F
          else s.byteAt sp j)))

/-- In every state QSTATUS completes without changing state and answers the 13 scalars, the four slots, the
other-network record with the 8 raw bytes of its PS, and for each of the three text buffers what QTEXT answers. -/
def Obligations.StatusQueryIsASnapshot : Prop :=
  ∀ s : State, ∃ t n, exec .qStatus s = .next t ∧ t.result = .status n ∧ t.withOwn s = s ∧
    n.reg = s.reg ∧ n.slot = s.slot ∧
    n.eon =
      ⟨s.eon.pi, s.eon.tp, s.eon.ta, s.eon.pty, (List.range 8).map (fun a => s.byteAt .eonPs a), s.eon.pin,
          s.eon.li⟩ ∧
    (∃ u, exec (.qText 0) s = .next u ∧ u.result = .text n.ps) ∧
    (∃ u, exec (.qText 1) s = .next u ∧ u.result = .text n.ptyn) ∧
    (∃ u, exec (.qText 2) s = .next u ∧ u.result = .text n.rt)

/-- In every state QTIME completes without changing state and answers the seven time fields when the time is
available and none otherwise. On an idle block EVCFG completes with the mask written and nothing else changed. -/
def Obligations.TimeQueryAndEventMask : Prop :=
  ∀ s : State,
    (∃ t, exec .qTime s = .next t ∧ t.withOwn s = s ∧
      (s.timeAvailable = true → t.result = .time (some s.time)) ∧
      (s.timeAvailable = false → t.result = .time none)) ∧
    (∀ mask : BitVec 7,
      (s.pending = none → ∃ t, exec (.evCfg mask) s = .next t ∧ t.even = mask ∧
          { t.withOwn s with even := s.even } = s) ∧
      (s.pending ≠ none → exec (.evCfg mask) s = .refused .eventPending))

/-- In every state T.CLASS3A completes without changing state and answers the raw word, its variant bits 15:14, and
the location record for variant 0, the service record for variant 1, and zeroed records for 2 and 3, each field
at the bits the rule names. -/
def Obligations.AnnouncementClassifier : Prop :=
  ∀ (y : Block) (s : State), ∃ t c, exec (.tClass3A y) s = .next t ∧ t.withOwn s = s ∧ t.result = .class3A c ∧
    c.y = y ∧ c.variant = y.extractLsb' 14 2 ∧
    (c.variant = 0 → c.cls = .sysLocation
      { ltn := y.extractLsb' 6 6, afIndicator := y.getLsbD 5, mode := y.getLsbD 4, international := y.getLsbD 3,
        national := y.getLsbD 2, regional := y.getLsbD 1, urban := y.getLsbD 0 }) ∧
    (c.variant = 1 → c.cls = .sysService
      { gap := y.extractLsb' 12 2, serviceId := y.extractLsb' 6 6, activation := y.extractLsb' 4 2,
        window := y.extractLsb' 2 2, delay := y.extractLsb' 0 2 }) ∧
    (c.variant = 2 ∨ c.variant = 3 → c.cls = .sysUnknown
      { ltn := 0, afIndicator := false, mode := false, international := false, national := false, regional := false,
        urban := false }
      { gap := 0, serviceId := 0, activation := 0, window := 0, delay := 0 })

/-- In every state T.CLASS8A completes without changing state and answers the raw operands and the class: system
when x bit 4 is 1, else single-group when x bit 3 is 1, else encryption announcement when IsEncAdmin holds, else
first of several when Y bit 15 is 1, else a later one with its sequence index and 28-bit chunk. -/
def Obligations.MessageClassifier : Prop :=
  ∀ (x : BitVec 5) (y z : Block) (s : State),
    ∃ t c, exec (.tClass8A x y z) s = .next t ∧ t.withOwn s = s ∧ t.result = .class8A c ∧
      c.x = x ∧ c.y = y ∧ c.z = z ∧
      c.cls =
        (if x.getLsbD 4 = true then .system (x.extractLsb' 0 4)
        else if x.getLsbD 3 = true then .userSingle ⟨y.getLsbD 14, y.extractLsb' 11 3, y.extractLsb' 0 11, z⟩
        else if Config.isEncAdmin x y z = true then .encAdmin
        else if y.getLsbD 15 = true then .multiFirst ⟨y.getLsbD 14, y.extractLsb' 11 3, y.extractLsb' 0 11, z⟩
        else .multiNext (y.getLsbD 14) (y.extractLsb' 12 2) (y.extractLsb' 0 12 ++ z))

/-- The model's choice, not the spec's (logs 1, 5, 6): an operation never touches the request list; a group leaves
the last answer as it is; RESET, EVCFG, U.CLEAR, U.LOAD, U.GLUE, U.RESTART and U.SETCUR leave the empty answer;
the draw counter rises by one in a 4A group with a non-zero payload and MJD below 15079 and stays in every other
operation. -/
def Obligations.OwnFieldsOfTheModel : Prop :=
  ∀ (i : Instr) (s t : State), exec i s = .next t →
    t.inbox = s.inbox ∧ (isGroup i = true → t.result = s.result) ∧
    (i = .reset ∨ (∃ m, i = .evCfg m) ∨ i = .uClear ∨ (∃ j c, i = .uLoad j c) ∨ i = .uGlue ∨ i = .uRestart ∨
      (∃ c, i = .uSetCur c) → t.result = .none) ∧
    ((∃ h mjd hour minute tzSign tzMag, i = .group4A h mjd hour minute tzSign tzMag ∧ mjd.toNat < 15079 ∧
        ¬(mjd.extractLsb' 0 15 = 0 ∧ hour = 0 ∧ minute = 0 ∧ tzSign = false ∧ tzMag = 0)) → t.draws = s.draws + 1) ∧
    ((∀ h mjd hour minute tzSign tzMag, i = .group4A h mjd hour minute tzSign tzMag →
        15079 ≤ mjd.toNat ∨ (mjd.extractLsb' 0 15 = 0 ∧ hour = 0 ∧ minute = 0 ∧ tzSign = false ∧ tzMag = 0)) →
      t.draws = s.draws)

/-- The values of the state that RESET does not write, at power-on: the event mask 0, every slice 0, the cursor
fresh, no event pending. The spec calls each of them its own choice (log 16). The time fields, which it leaves
unspecified (log 7), are not in the statement. -/
def Obligations.PowerOnStateOutsideReset : Prop :=
  State.reset.even = 0 ∧ (∀ j, contSlice State.reset.cont j = 0) ∧ State.reset.cur = ⟨0, 0⟩ ∧
    State.reset.pending = none

/-- The spec's step relation takes the request as an argument and a state that is the block's alone: transition.
With a request first in the host's list, a step has a next state exactly when transition has one, the same block
state and, for a command, the same answer; it is refused exactly as transition is. So nothing of the host's side
bears on the block but the request and the number of the next free draw. How the host's side is held beside the
block is the model's choice (logs 1, 5, 6). -/
def Obligations.StepIsTheBlocksTransition : Prop :=
  ∀ (s : State) (r : Request) (rest : List Request), s.inbox = r :: rest →
    (∀ t, step s = .next t →
      t.inbox = rest ∧
        ∃ a, transition r s.draws s.toBlockState = .next (t.toBlockState, a) ∧
          t.result = (match r with | .op (.command _) => a | .op (.group _) => s.result | .ack => s.result)) ∧
    (∀ b a, transition r s.draws s.toBlockState = .next (b, a) → ∃ t, step s = .next t ∧ t.toBlockState = b) ∧
    (∀ e, step s = .refused e ↔ transition r s.draws s.toBlockState = .refused e)

end Slice0Statements
end

