-- ==== Sys2Proof/Laws/Memory.lean ====
section
/-! SUPPORT. The byte memories: a read after a write, and the canonical form that every memory operation keeps. -/

namespace Sys2Proof.Machine

@[simp] theorem Memory.read_nil (sp : Space) (a : Nat) : Memory.read sp [] a = blankByte sp := rfl

@[simp] theorem Memory.read_cleared (sp : Space) (a : Nat) : Memory.read sp clearedBuffer a = blankByte sp := rfl

theorem Memory.read_put (sp : Space) (a : Nat) (b : Byte) (m : Memory) (x : Nat) :
    Memory.read sp (Memory.put a b m) x = if x = a then b else Memory.read sp m x := by
  induction m with
  | nil =>
    by_cases h : a = x
    · simp [Memory.put, Memory.read, h]
    · simp [Memory.put, Memory.read, h, Ne.symm h]
  | cons c m ih =>
    obtain ⟨a', b'⟩ := c
    by_cases hlt : a < a'
    · by_cases hx : a = x
      · subst hx
        simp [Memory.put, Memory.read, hlt]
      · simp [Memory.put, Memory.read, hlt, hx, Ne.symm hx]
    · by_cases he : a = a'
      · subst he
        by_cases hx : a = x
        · simp [Memory.put, Memory.read, hx]
        · simp [Memory.put, Memory.read, hx, Ne.symm hx]
      · by_cases hx : a' = x
        · subst hx
          simp [Memory.put, Memory.read, hlt, he, Ne.symm he]
        · simp [Memory.put, Memory.read, hlt, he, hx, ih]

theorem Memory.read_drop (sp : Space) (a : Nat) (m : Memory) (x : Nat) :
    Memory.read sp (Memory.drop a m) x = if x = a then blankByte sp else Memory.read sp m x := by
  induction m with
  | nil => simp [Memory.drop, Memory.read]
  | cons c m ih =>
    obtain ⟨a', b'⟩ := c
    by_cases he : a' = a
    · subst he
      have hd : Memory.drop a' ((a', b') :: m) = Memory.drop a' m := by simp [Memory.drop]
      rw [hd, ih]
      by_cases hx : x = a'
      · simp [hx]
      · simp [Memory.read, hx, Ne.symm hx]
    · have hd : Memory.drop a ((a', b') :: m) = (a', b') :: Memory.drop a m := by simp [Memory.drop, he]
      rw [hd]
      by_cases hx : a' = x
      · subst hx
        simp [Memory.read, he]
      · simp [Memory.read, hx, ih]

/-- A read after a write: the byte written at its address, every other byte as before. -/
theorem Memory.read_write (sp : Space) (a : Nat) (b : Byte) (m : Memory) (x : Nat) :
    Memory.read sp (Memory.write sp a b m) x = if x = a then b else Memory.read sp m x := by
  unfold Memory.write
  by_cases hb : b = blankByte sp
  · simp only [hb, if_true]
    exact Memory.read_drop sp a m x
  · simp only [hb, if_false]
    exact Memory.read_put sp a b m x

theorem Memory.mem_put {a : Nat} {b : Byte} {m : Memory} {c : Host.Cell} (h : c ∈ Memory.put a b m) :
    c = (a, b) ∨ c ∈ m := by
  induction m with
  | nil => simpa [Memory.put] using h
  | cons d m ih =>
    obtain ⟨a', b'⟩ := d
    unfold Memory.put at h
    split at h
    · simpa using h
    · split at h
      · rcases List.mem_cons.1 h with h | h
        · exact .inl h
        · exact .inr (List.mem_cons_of_mem _ h)
      · rcases List.mem_cons.1 h with h | h
        · exact .inr (by simp [h])
        · rcases ih h with h | h
          · exact .inl h
          · exact .inr (List.mem_cons_of_mem _ h)

theorem Memory.put_rising {a : Nat} {b : Byte} {m : Memory}
    (h : List.Pairwise (fun c d : Host.Cell => c.1 < d.1) m) :
    List.Pairwise (fun c d : Host.Cell => c.1 < d.1) (Memory.put a b m) := by
  induction m with
  | nil => simp [Memory.put]
  | cons d m ih =>
    obtain ⟨a', b'⟩ := d
    have hm := List.pairwise_cons.1 h
    unfold Memory.put
    split
    · rename_i hlt
      refine List.pairwise_cons.2 ⟨?_, h⟩
      intro c hc
      rcases List.mem_cons.1 hc with hc | hc
      · simpa [hc] using hlt
      · exact Nat.lt_trans hlt (hm.1 c hc)
    · split
      · rename_i he
        exact List.pairwise_cons.2 ⟨fun c hc => by simpa [he] using hm.1 c hc, hm.2⟩
      · rename_i hlt he
        refine List.pairwise_cons.2 ⟨?_, ih hm.2⟩
        intro c hc
        rcases Memory.mem_put hc with hc | hc
        · subst hc
          show a' < a
          omega
        · exact hm.1 c hc

/-- A write inside the space keeps the canonical form. -/
theorem Memory.write_wf {sp : Space} {a : Nat} {b : Byte} {m : Memory} (h : Memory.wf sp m) (ha : a < spaceSize sp) :
    Memory.wf sp (Memory.write sp a b m) := by
  unfold Memory.write
  split
  · exact ⟨h.1.filter _, fun c hc => h.2 c (List.mem_filter.1 hc).1⟩
  · rename_i hb
    refine ⟨Memory.put_rising h.1, ?_⟩
    intro c hc
    rcases Memory.mem_put hc with hc | hc
    · subst hc
      exact ⟨ha, hb⟩
    · exact h.2 c hc

/-- Bytes written one after another inside the space keep the canonical form. -/
theorem Memory.writeBytes_wf {sp : Space} {bs : List Byte} :
    ∀ {a : Nat} {m : Memory}, Memory.wf sp m → a + bs.length ≤ spaceSize sp →
      Memory.wf sp (Memory.writeBytes sp a bs m) := by
  induction bs with
  | nil => intro a m h _; exact h
  | cons b bs ih =>
    intro a m h hl
    simp only [List.length_cons] at hl
    exact ih (Memory.write_wf h (by omega)) (by omega)

/-- The cleared buffer is canonical. -/
theorem clearedBuffer_wf (sp : Space) : Memory.wf sp clearedBuffer := by
  constructor <;> simp [clearedBuffer]

/-- A segment write inside the space keeps the canonical form (41_text_reassembly.md R180). -/
theorem segWrite_wf {sp : Space} {seg : Nat} {bs : List Byte} {m : Memory} (h : Memory.wf sp m)
    (hl : bs.length * seg + bs.length ≤ spaceSize sp) : Memory.wf sp (segWrite sp seg bs m) :=
  Memory.writeBytes_wf h hl

/-- The bytes written one after another, and every other byte as before. -/
theorem Memory.read_writeBytes (sp : Space) (bs : List Byte) :
    ∀ (a : Nat) (m : Memory) (x : Nat),
      Memory.read sp (Memory.writeBytes sp a bs m) x =
        if a ≤ x ∧ x < a + bs.length then bs.getD (x - a) 0 else Memory.read sp m x := by
  induction bs with
  | nil =>
    intro a m x
    have : ¬(a ≤ x ∧ x < a + ([] : List Byte).length) := by simp
    rw [if_neg this]
    rfl
  | cons b bs ih =>
    intro a m x
    simp only [Memory.writeBytes, ih, Memory.read_write, List.length_cons]
    by_cases hx : x = a
    · subst hx
      have h1 : ¬(x + 1 ≤ x ∧ x < x + 1 + bs.length) := by omega
      have h2 : x ≤ x ∧ x < x + (bs.length + 1) := by omega
      rw [if_neg h1, if_pos h2]
      simp
    · by_cases hin : a + 1 ≤ x ∧ x < a + 1 + bs.length
      · have h2 : a ≤ x ∧ x < a + (bs.length + 1) := by omega
        rw [if_pos hin, if_pos h2]
        have h3 : x - a = (x - (a + 1)) + 1 := by omega
        rw [h3]
        simp
      · have h2 : ¬(a ≤ x ∧ x < a + (bs.length + 1)) := by omega
        rw [if_neg hin, if_neg h2, if_neg hx]

/-- A segment write stores byte `i` at offset `n * seg + i` and touches no other byte (41_text_reassembly.md R180). -/
theorem read_segWrite (sp : Space) (seg : Nat) (bs : List Byte) (m : Memory) (x : Nat) :
    Memory.read sp (segWrite sp seg bs m) x =
      if bs.length * seg ≤ x ∧ x < bs.length * seg + bs.length then bs.getD (x - bs.length * seg) 0
      else Memory.read sp m x :=
  Memory.read_writeBytes sp bs _ m x

@[simp] theorem Memory.bytes_length (sp : Space) (m : Memory) : (Memory.bytes sp m).length = spaceSize sp := by
  simp [Memory.bytes]

end Sys2Proof.Machine
end

