-- ==== Sys2Proof/Laws/State.lean ====
section
/-! SUPPORT. One lemma for each field of the state and each named update: what the update writes there, or that it
leaves the field alone. A proof cites these and unfolds no record update. -/

namespace Sys2Proof.Machine

/-! ### commonUpdate -/

@[simp] theorem commonUpdate_reg (h : Head) (s : State) :
    (commonUpdate h s).reg = { s.reg with pi := h.pi, tp := h.tp, pty := h.pty } := rfl
@[simp] theorem commonUpdate_ps (h : Head) (s : State) : (commonUpdate h s).ps = s.ps := rfl
@[simp] theorem commonUpdate_ptyn (h : Head) (s : State) : (commonUpdate h s).ptyn = s.ptyn := rfl
@[simp] theorem commonUpdate_rt (h : Head) (s : State) : (commonUpdate h s).rt = s.rt := rfl
@[simp] theorem commonUpdate_slot (h : Head) (s : State) : (commonUpdate h s).slot = s.slot := rfl
@[simp] theorem commonUpdate_eon (h : Head) (s : State) : (commonUpdate h s).eon = s.eon := rfl
@[simp] theorem commonUpdate_timeAvailable (h : Head) (s : State) :
    (commonUpdate h s).timeAvailable = s.timeAvailable := rfl
@[simp] theorem commonUpdate_time (h : Head) (s : State) : (commonUpdate h s).time = s.time := rfl
@[simp] theorem commonUpdate_rtToggle (h : Head) (s : State) : (commonUpdate h s).rtToggle = s.rtToggle := rfl
@[simp] theorem commonUpdate_ptynToggle (h : Head) (s : State) : (commonUpdate h s).ptynToggle = s.ptynToggle := rfl
@[simp] theorem commonUpdate_pending (h : Head) (s : State) : (commonUpdate h s).pending = s.pending := rfl
@[simp] theorem commonUpdate_even (h : Head) (s : State) : (commonUpdate h s).even = s.even := rfl
@[simp] theorem commonUpdate_cont (h : Head) (s : State) : (commonUpdate h s).cont = s.cont := rfl
@[simp] theorem commonUpdate_cur (h : Head) (s : State) : (commonUpdate h s).cur = s.cur := rfl
@[simp] theorem commonUpdate_result (h : Head) (s : State) : (commonUpdate h s).result = s.result := rfl
@[simp] theorem commonUpdate_inbox (h : Head) (s : State) : (commonUpdate h s).inbox = s.inbox := rfl
@[simp] theorem commonUpdate_draws (h : Head) (s : State) : (commonUpdate h s).draws = s.draws := rfl

/-! ### basicUpdate -/

@[simp] theorem basicUpdate_reg (b : Basic) (s : State) :
    (basicUpdate b s).reg = { s.reg with ta := b.ta, ms := b.ms, di := setDi s.reg.di b.seg b.di } := rfl
@[simp] theorem basicUpdate_ps (b : Basic) (s : State) : (basicUpdate b s).ps = s.ps := rfl
@[simp] theorem basicUpdate_ptyn (b : Basic) (s : State) : (basicUpdate b s).ptyn = s.ptyn := rfl
@[simp] theorem basicUpdate_rt (b : Basic) (s : State) : (basicUpdate b s).rt = s.rt := rfl
@[simp] theorem basicUpdate_slot (b : Basic) (s : State) : (basicUpdate b s).slot = s.slot := rfl
@[simp] theorem basicUpdate_eon (b : Basic) (s : State) : (basicUpdate b s).eon = s.eon := rfl
@[simp] theorem basicUpdate_timeAvailable (b : Basic) (s : State) :
    (basicUpdate b s).timeAvailable = s.timeAvailable := rfl
@[simp] theorem basicUpdate_time (b : Basic) (s : State) : (basicUpdate b s).time = s.time := rfl
@[simp] theorem basicUpdate_rtToggle (b : Basic) (s : State) : (basicUpdate b s).rtToggle = s.rtToggle := rfl
@[simp] theorem basicUpdate_ptynToggle (b : Basic) (s : State) : (basicUpdate b s).ptynToggle = s.ptynToggle := rfl
@[simp] theorem basicUpdate_pending (b : Basic) (s : State) : (basicUpdate b s).pending = s.pending := rfl
@[simp] theorem basicUpdate_even (b : Basic) (s : State) : (basicUpdate b s).even = s.even := rfl
@[simp] theorem basicUpdate_cont (b : Basic) (s : State) : (basicUpdate b s).cont = s.cont := rfl
@[simp] theorem basicUpdate_cur (b : Basic) (s : State) : (basicUpdate b s).cur = s.cur := rfl
@[simp] theorem basicUpdate_result (b : Basic) (s : State) : (basicUpdate b s).result = s.result := rfl
@[simp] theorem basicUpdate_inbox (b : Basic) (s : State) : (basicUpdate b s).inbox = s.inbox := rfl
@[simp] theorem basicUpdate_draws (b : Basic) (s : State) : (basicUpdate b s).draws = s.draws := rfl

/-! ### psWrite -/

@[simp] theorem psWrite_reg (seg : BitVec 2) (ch0 ch1 : Byte) (s : State) : (psWrite seg ch0 ch1 s).reg = s.reg := rfl
@[simp] theorem psWrite_ps (seg : BitVec 2) (ch0 ch1 : Byte) (s : State) :
    (psWrite seg ch0 ch1 s).ps = segWrite .ps seg.toNat [ch0, ch1] s.ps := rfl
@[simp] theorem psWrite_ptyn (seg : BitVec 2) (ch0 ch1 : Byte) (s : State) :
    (psWrite seg ch0 ch1 s).ptyn = s.ptyn := rfl
@[simp] theorem psWrite_rt (seg : BitVec 2) (ch0 ch1 : Byte) (s : State) : (psWrite seg ch0 ch1 s).rt = s.rt := rfl
@[simp] theorem psWrite_slot (seg : BitVec 2) (ch0 ch1 : Byte) (s : State) :
    (psWrite seg ch0 ch1 s).slot = s.slot := rfl
@[simp] theorem psWrite_eon (seg : BitVec 2) (ch0 ch1 : Byte) (s : State) : (psWrite seg ch0 ch1 s).eon = s.eon := rfl
@[simp] theorem psWrite_timeAvailable (seg : BitVec 2) (ch0 ch1 : Byte) (s : State) :
    (psWrite seg ch0 ch1 s).timeAvailable = s.timeAvailable := rfl
@[simp] theorem psWrite_time (seg : BitVec 2) (ch0 ch1 : Byte) (s : State) :
    (psWrite seg ch0 ch1 s).time = s.time := rfl
@[simp] theorem psWrite_rtToggle (seg : BitVec 2) (ch0 ch1 : Byte) (s : State) :
    (psWrite seg ch0 ch1 s).rtToggle = s.rtToggle := rfl
@[simp] theorem psWrite_ptynToggle (seg : BitVec 2) (ch0 ch1 : Byte) (s : State) :
    (psWrite seg ch0 ch1 s).ptynToggle = s.ptynToggle := rfl
@[simp] theorem psWrite_pending (seg : BitVec 2) (ch0 ch1 : Byte) (s : State) :
    (psWrite seg ch0 ch1 s).pending = s.pending := rfl
@[simp] theorem psWrite_even (seg : BitVec 2) (ch0 ch1 : Byte) (s : State) :
    (psWrite seg ch0 ch1 s).even = s.even := rfl
@[simp] theorem psWrite_cont (seg : BitVec 2) (ch0 ch1 : Byte) (s : State) :
    (psWrite seg ch0 ch1 s).cont = s.cont := rfl
@[simp] theorem psWrite_cur (seg : BitVec 2) (ch0 ch1 : Byte) (s : State) : (psWrite seg ch0 ch1 s).cur = s.cur := rfl
@[simp] theorem psWrite_result (seg : BitVec 2) (ch0 ch1 : Byte) (s : State) :
    (psWrite seg ch0 ch1 s).result = s.result := rfl
@[simp] theorem psWrite_inbox (seg : BitVec 2) (ch0 ch1 : Byte) (s : State) :
    (psWrite seg ch0 ch1 s).inbox = s.inbox := rfl
@[simp] theorem psWrite_draws (seg : BitVec 2) (ch0 ch1 : Byte) (s : State) :
    (psWrite seg ch0 ch1 s).draws = s.draws := rfl

/-! ### pinUpdate -/

@[simp] theorem pinUpdate_reg (pin : Block) (s : State) : (pinUpdate pin s).reg = { s.reg with pin := pin } := rfl
@[simp] theorem pinUpdate_ps (pin : Block) (s : State) : (pinUpdate pin s).ps = s.ps := rfl
@[simp] theorem pinUpdate_ptyn (pin : Block) (s : State) : (pinUpdate pin s).ptyn = s.ptyn := rfl
@[simp] theorem pinUpdate_rt (pin : Block) (s : State) : (pinUpdate pin s).rt = s.rt := rfl
@[simp] theorem pinUpdate_slot (pin : Block) (s : State) : (pinUpdate pin s).slot = s.slot := rfl
@[simp] theorem pinUpdate_eon (pin : Block) (s : State) : (pinUpdate pin s).eon = s.eon := rfl
@[simp] theorem pinUpdate_timeAvailable (pin : Block) (s : State) :
    (pinUpdate pin s).timeAvailable = s.timeAvailable := rfl
@[simp] theorem pinUpdate_time (pin : Block) (s : State) : (pinUpdate pin s).time = s.time := rfl
@[simp] theorem pinUpdate_rtToggle (pin : Block) (s : State) : (pinUpdate pin s).rtToggle = s.rtToggle := rfl
@[simp] theorem pinUpdate_ptynToggle (pin : Block) (s : State) : (pinUpdate pin s).ptynToggle = s.ptynToggle := rfl
@[simp] theorem pinUpdate_pending (pin : Block) (s : State) : (pinUpdate pin s).pending = s.pending := rfl
@[simp] theorem pinUpdate_even (pin : Block) (s : State) : (pinUpdate pin s).even = s.even := rfl
@[simp] theorem pinUpdate_cont (pin : Block) (s : State) : (pinUpdate pin s).cont = s.cont := rfl
@[simp] theorem pinUpdate_cur (pin : Block) (s : State) : (pinUpdate pin s).cur = s.cur := rfl
@[simp] theorem pinUpdate_result (pin : Block) (s : State) : (pinUpdate pin s).result = s.result := rfl
@[simp] theorem pinUpdate_inbox (pin : Block) (s : State) : (pinUpdate pin s).inbox = s.inbox := rfl
@[simp] theorem pinUpdate_draws (pin : Block) (s : State) : (pinUpdate pin s).draws = s.draws := rfl

/-! ### slowUpdate -/

/-- All that `slowUpdate` may change. -/
theorem slowUpdate_frame (la : Bool) (var : BitVec 3) (p : BitVec 12) (s : State) :
    slowUpdate la var p s =
      { s with reg := (slowUpdate la var p s).reg } := by
  unfold slowUpdate; split <;> rfl

@[simp] theorem slowUpdate_ps (la : Bool) (var : BitVec 3) (p : BitVec 12) (s : State) :
    (slowUpdate la var p s).ps = s.ps := (congrArg (fun x : State => x.ps) (slowUpdate_frame la var p s) :)
@[simp] theorem slowUpdate_ptyn (la : Bool) (var : BitVec 3) (p : BitVec 12) (s : State) :
    (slowUpdate la var p s).ptyn = s.ptyn := (congrArg (fun x : State => x.ptyn) (slowUpdate_frame la var p s) :)
@[simp] theorem slowUpdate_rt (la : Bool) (var : BitVec 3) (p : BitVec 12) (s : State) :
    (slowUpdate la var p s).rt = s.rt := (congrArg (fun x : State => x.rt) (slowUpdate_frame la var p s) :)
@[simp] theorem slowUpdate_slot (la : Bool) (var : BitVec 3) (p : BitVec 12) (s : State) :
    (slowUpdate la var p s).slot = s.slot := (congrArg (fun x : State => x.slot) (slowUpdate_frame la var p s) :)
@[simp] theorem slowUpdate_eon (la : Bool) (var : BitVec 3) (p : BitVec 12) (s : State) :
    (slowUpdate la var p s).eon = s.eon := (congrArg (fun x : State => x.eon) (slowUpdate_frame la var p s) :)
@[simp] theorem slowUpdate_timeAvailable (la : Bool) (var : BitVec 3) (p : BitVec 12) (s : State) :
    (slowUpdate la var p s).timeAvailable = s.timeAvailable := (congrArg (fun x : State => x.timeAvailable) (slowUpdate_frame la var p s) :)
@[simp] theorem slowUpdate_time (la : Bool) (var : BitVec 3) (p : BitVec 12) (s : State) :
    (slowUpdate la var p s).time = s.time := (congrArg (fun x : State => x.time) (slowUpdate_frame la var p s) :)
@[simp] theorem slowUpdate_rtToggle (la : Bool) (var : BitVec 3) (p : BitVec 12) (s : State) :
    (slowUpdate la var p s).rtToggle = s.rtToggle := (congrArg (fun x : State => x.rtToggle) (slowUpdate_frame la var p s) :)
@[simp] theorem slowUpdate_ptynToggle (la : Bool) (var : BitVec 3) (p : BitVec 12) (s : State) :
    (slowUpdate la var p s).ptynToggle = s.ptynToggle := (congrArg (fun x : State => x.ptynToggle) (slowUpdate_frame la var p s) :)
@[simp] theorem slowUpdate_pending (la : Bool) (var : BitVec 3) (p : BitVec 12) (s : State) :
    (slowUpdate la var p s).pending = s.pending := (congrArg (fun x : State => x.pending) (slowUpdate_frame la var p s) :)
@[simp] theorem slowUpdate_even (la : Bool) (var : BitVec 3) (p : BitVec 12) (s : State) :
    (slowUpdate la var p s).even = s.even := (congrArg (fun x : State => x.even) (slowUpdate_frame la var p s) :)
@[simp] theorem slowUpdate_cont (la : Bool) (var : BitVec 3) (p : BitVec 12) (s : State) :
    (slowUpdate la var p s).cont = s.cont := (congrArg (fun x : State => x.cont) (slowUpdate_frame la var p s) :)
@[simp] theorem slowUpdate_cur (la : Bool) (var : BitVec 3) (p : BitVec 12) (s : State) :
    (slowUpdate la var p s).cur = s.cur := (congrArg (fun x : State => x.cur) (slowUpdate_frame la var p s) :)
@[simp] theorem slowUpdate_result (la : Bool) (var : BitVec 3) (p : BitVec 12) (s : State) :
    (slowUpdate la var p s).result = s.result := (congrArg (fun x : State => x.result) (slowUpdate_frame la var p s) :)
@[simp] theorem slowUpdate_inbox (la : Bool) (var : BitVec 3) (p : BitVec 12) (s : State) :
    (slowUpdate la var p s).inbox = s.inbox := (congrArg (fun x : State => x.inbox) (slowUpdate_frame la var p s) :)
@[simp] theorem slowUpdate_draws (la : Bool) (var : BitVec 3) (p : BitVec 12) (s : State) :
    (slowUpdate la var p s).draws = s.draws := (congrArg (fun x : State => x.draws) (slowUpdate_frame la var p s) :)

/-! ### clockUpdate -/

/-- All that `clockUpdate` may change. -/
theorem clockUpdate_frame (mjd : BitVec 17) (hr : BitVec 5) (mn : BitVec 6) (sg : Bool) (mg : BitVec 5) (s : State) :
    clockUpdate mjd hr mn sg mg s =
      { s with time := (clockUpdate mjd hr mn sg mg s).time, draws := (clockUpdate mjd hr mn sg mg s).draws, timeAvailable := (clockUpdate mjd hr mn sg mg s).timeAvailable } := by
  unfold clockUpdate; split <;> rfl

@[simp] theorem clockUpdate_reg (mjd : BitVec 17) (hr : BitVec 5) (mn : BitVec 6) (sg : Bool) (mg : BitVec 5) (s : State) :
    (clockUpdate mjd hr mn sg mg s).reg = s.reg := (congrArg (fun x : State => x.reg) (clockUpdate_frame mjd hr mn sg mg s) :)
@[simp] theorem clockUpdate_ps (mjd : BitVec 17) (hr : BitVec 5) (mn : BitVec 6) (sg : Bool) (mg : BitVec 5) (s : State) :
    (clockUpdate mjd hr mn sg mg s).ps = s.ps := (congrArg (fun x : State => x.ps) (clockUpdate_frame mjd hr mn sg mg s) :)
@[simp] theorem clockUpdate_ptyn (mjd : BitVec 17) (hr : BitVec 5) (mn : BitVec 6) (sg : Bool) (mg : BitVec 5) (s : State) :
    (clockUpdate mjd hr mn sg mg s).ptyn = s.ptyn := (congrArg (fun x : State => x.ptyn) (clockUpdate_frame mjd hr mn sg mg s) :)
@[simp] theorem clockUpdate_rt (mjd : BitVec 17) (hr : BitVec 5) (mn : BitVec 6) (sg : Bool) (mg : BitVec 5) (s : State) :
    (clockUpdate mjd hr mn sg mg s).rt = s.rt := (congrArg (fun x : State => x.rt) (clockUpdate_frame mjd hr mn sg mg s) :)
@[simp] theorem clockUpdate_slot (mjd : BitVec 17) (hr : BitVec 5) (mn : BitVec 6) (sg : Bool) (mg : BitVec 5) (s : State) :
    (clockUpdate mjd hr mn sg mg s).slot = s.slot := (congrArg (fun x : State => x.slot) (clockUpdate_frame mjd hr mn sg mg s) :)
@[simp] theorem clockUpdate_eon (mjd : BitVec 17) (hr : BitVec 5) (mn : BitVec 6) (sg : Bool) (mg : BitVec 5) (s : State) :
    (clockUpdate mjd hr mn sg mg s).eon = s.eon := (congrArg (fun x : State => x.eon) (clockUpdate_frame mjd hr mn sg mg s) :)
@[simp] theorem clockUpdate_timeAvailable (mjd : BitVec 17) (hr : BitVec 5) (mn : BitVec 6) (sg : Bool) (mg : BitVec 5) (s : State) :
    (clockUpdate mjd hr mn sg mg s).timeAvailable = true := by
  unfold clockUpdate; split <;> rfl
@[simp] theorem clockUpdate_rtToggle (mjd : BitVec 17) (hr : BitVec 5) (mn : BitVec 6) (sg : Bool) (mg : BitVec 5) (s : State) :
    (clockUpdate mjd hr mn sg mg s).rtToggle = s.rtToggle := (congrArg (fun x : State => x.rtToggle) (clockUpdate_frame mjd hr mn sg mg s) :)
@[simp] theorem clockUpdate_ptynToggle (mjd : BitVec 17) (hr : BitVec 5) (mn : BitVec 6) (sg : Bool) (mg : BitVec 5) (s : State) :
    (clockUpdate mjd hr mn sg mg s).ptynToggle = s.ptynToggle := (congrArg (fun x : State => x.ptynToggle) (clockUpdate_frame mjd hr mn sg mg s) :)
@[simp] theorem clockUpdate_pending (mjd : BitVec 17) (hr : BitVec 5) (mn : BitVec 6) (sg : Bool) (mg : BitVec 5) (s : State) :
    (clockUpdate mjd hr mn sg mg s).pending = s.pending := (congrArg (fun x : State => x.pending) (clockUpdate_frame mjd hr mn sg mg s) :)
@[simp] theorem clockUpdate_even (mjd : BitVec 17) (hr : BitVec 5) (mn : BitVec 6) (sg : Bool) (mg : BitVec 5) (s : State) :
    (clockUpdate mjd hr mn sg mg s).even = s.even := (congrArg (fun x : State => x.even) (clockUpdate_frame mjd hr mn sg mg s) :)
@[simp] theorem clockUpdate_cont (mjd : BitVec 17) (hr : BitVec 5) (mn : BitVec 6) (sg : Bool) (mg : BitVec 5) (s : State) :
    (clockUpdate mjd hr mn sg mg s).cont = s.cont := (congrArg (fun x : State => x.cont) (clockUpdate_frame mjd hr mn sg mg s) :)
@[simp] theorem clockUpdate_cur (mjd : BitVec 17) (hr : BitVec 5) (mn : BitVec 6) (sg : Bool) (mg : BitVec 5) (s : State) :
    (clockUpdate mjd hr mn sg mg s).cur = s.cur := (congrArg (fun x : State => x.cur) (clockUpdate_frame mjd hr mn sg mg s) :)
@[simp] theorem clockUpdate_result (mjd : BitVec 17) (hr : BitVec 5) (mn : BitVec 6) (sg : Bool) (mg : BitVec 5) (s : State) :
    (clockUpdate mjd hr mn sg mg s).result = s.result := (congrArg (fun x : State => x.result) (clockUpdate_frame mjd hr mn sg mg s) :)
@[simp] theorem clockUpdate_inbox (mjd : BitVec 17) (hr : BitVec 5) (mn : BitVec 6) (sg : Bool) (mg : BitVec 5) (s : State) :
    (clockUpdate mjd hr mn sg mg s).inbox = s.inbox := (congrArg (fun x : State => x.inbox) (clockUpdate_frame mjd hr mn sg mg s) :)

/-! ### slotUpdate -/

/-- All that `slotUpdate` may change. -/
theorem slotUpdate_frame (cig : BitVec 5) (msg aid : Block) (s : State) :
    slotUpdate cig msg aid s =
      { s with slot := (slotUpdate cig msg aid s).slot } := by
  unfold slotUpdate; split <;> rfl

@[simp] theorem slotUpdate_reg (cig : BitVec 5) (msg aid : Block) (s : State) :
    (slotUpdate cig msg aid s).reg = s.reg := (congrArg (fun x : State => x.reg) (slotUpdate_frame cig msg aid s) :)
@[simp] theorem slotUpdate_ps (cig : BitVec 5) (msg aid : Block) (s : State) :
    (slotUpdate cig msg aid s).ps = s.ps := (congrArg (fun x : State => x.ps) (slotUpdate_frame cig msg aid s) :)
@[simp] theorem slotUpdate_ptyn (cig : BitVec 5) (msg aid : Block) (s : State) :
    (slotUpdate cig msg aid s).ptyn = s.ptyn := (congrArg (fun x : State => x.ptyn) (slotUpdate_frame cig msg aid s) :)
@[simp] theorem slotUpdate_rt (cig : BitVec 5) (msg aid : Block) (s : State) :
    (slotUpdate cig msg aid s).rt = s.rt := (congrArg (fun x : State => x.rt) (slotUpdate_frame cig msg aid s) :)
@[simp] theorem slotUpdate_eon (cig : BitVec 5) (msg aid : Block) (s : State) :
    (slotUpdate cig msg aid s).eon = s.eon := (congrArg (fun x : State => x.eon) (slotUpdate_frame cig msg aid s) :)
@[simp] theorem slotUpdate_timeAvailable (cig : BitVec 5) (msg aid : Block) (s : State) :
    (slotUpdate cig msg aid s).timeAvailable = s.timeAvailable := (congrArg (fun x : State => x.timeAvailable) (slotUpdate_frame cig msg aid s) :)
@[simp] theorem slotUpdate_time (cig : BitVec 5) (msg aid : Block) (s : State) :
    (slotUpdate cig msg aid s).time = s.time := (congrArg (fun x : State => x.time) (slotUpdate_frame cig msg aid s) :)
@[simp] theorem slotUpdate_rtToggle (cig : BitVec 5) (msg aid : Block) (s : State) :
    (slotUpdate cig msg aid s).rtToggle = s.rtToggle := (congrArg (fun x : State => x.rtToggle) (slotUpdate_frame cig msg aid s) :)
@[simp] theorem slotUpdate_ptynToggle (cig : BitVec 5) (msg aid : Block) (s : State) :
    (slotUpdate cig msg aid s).ptynToggle = s.ptynToggle := (congrArg (fun x : State => x.ptynToggle) (slotUpdate_frame cig msg aid s) :)
@[simp] theorem slotUpdate_pending (cig : BitVec 5) (msg aid : Block) (s : State) :
    (slotUpdate cig msg aid s).pending = s.pending := (congrArg (fun x : State => x.pending) (slotUpdate_frame cig msg aid s) :)
@[simp] theorem slotUpdate_even (cig : BitVec 5) (msg aid : Block) (s : State) :
    (slotUpdate cig msg aid s).even = s.even := (congrArg (fun x : State => x.even) (slotUpdate_frame cig msg aid s) :)
@[simp] theorem slotUpdate_cont (cig : BitVec 5) (msg aid : Block) (s : State) :
    (slotUpdate cig msg aid s).cont = s.cont := (congrArg (fun x : State => x.cont) (slotUpdate_frame cig msg aid s) :)
@[simp] theorem slotUpdate_cur (cig : BitVec 5) (msg aid : Block) (s : State) :
    (slotUpdate cig msg aid s).cur = s.cur := (congrArg (fun x : State => x.cur) (slotUpdate_frame cig msg aid s) :)
@[simp] theorem slotUpdate_result (cig : BitVec 5) (msg aid : Block) (s : State) :
    (slotUpdate cig msg aid s).result = s.result := (congrArg (fun x : State => x.result) (slotUpdate_frame cig msg aid s) :)
@[simp] theorem slotUpdate_inbox (cig : BitVec 5) (msg aid : Block) (s : State) :
    (slotUpdate cig msg aid s).inbox = s.inbox := (congrArg (fun x : State => x.inbox) (slotUpdate_frame cig msg aid s) :)
@[simp] theorem slotUpdate_draws (cig : BitVec 5) (msg aid : Block) (s : State) :
    (slotUpdate cig msg aid s).draws = s.draws := (congrArg (fun x : State => x.draws) (slotUpdate_frame cig msg aid s) :)

/-! ### eonCommon -/

@[simp] theorem eonCommon_reg (tpon : Bool) (pion : Block) (s : State) : (eonCommon tpon pion s).reg = s.reg := rfl
@[simp] theorem eonCommon_ps (tpon : Bool) (pion : Block) (s : State) : (eonCommon tpon pion s).ps = s.ps := rfl
@[simp] theorem eonCommon_ptyn (tpon : Bool) (pion : Block) (s : State) : (eonCommon tpon pion s).ptyn = s.ptyn := rfl
@[simp] theorem eonCommon_rt (tpon : Bool) (pion : Block) (s : State) : (eonCommon tpon pion s).rt = s.rt := rfl
@[simp] theorem eonCommon_slot (tpon : Bool) (pion : Block) (s : State) : (eonCommon tpon pion s).slot = s.slot := rfl
@[simp] theorem eonCommon_eon (tpon : Bool) (pion : Block) (s : State) :
    (eonCommon tpon pion s).eon = { s.eon with tp := tpon, pi := pion } := rfl
@[simp] theorem eonCommon_timeAvailable (tpon : Bool) (pion : Block) (s : State) :
    (eonCommon tpon pion s).timeAvailable = s.timeAvailable := rfl
@[simp] theorem eonCommon_time (tpon : Bool) (pion : Block) (s : State) : (eonCommon tpon pion s).time = s.time := rfl
@[simp] theorem eonCommon_rtToggle (tpon : Bool) (pion : Block) (s : State) :
    (eonCommon tpon pion s).rtToggle = s.rtToggle := rfl
@[simp] theorem eonCommon_ptynToggle (tpon : Bool) (pion : Block) (s : State) :
    (eonCommon tpon pion s).ptynToggle = s.ptynToggle := rfl
@[simp] theorem eonCommon_pending (tpon : Bool) (pion : Block) (s : State) :
    (eonCommon tpon pion s).pending = s.pending := rfl
@[simp] theorem eonCommon_even (tpon : Bool) (pion : Block) (s : State) : (eonCommon tpon pion s).even = s.even := rfl
@[simp] theorem eonCommon_cont (tpon : Bool) (pion : Block) (s : State) : (eonCommon tpon pion s).cont = s.cont := rfl
@[simp] theorem eonCommon_cur (tpon : Bool) (pion : Block) (s : State) : (eonCommon tpon pion s).cur = s.cur := rfl
@[simp] theorem eonCommon_result (tpon : Bool) (pion : Block) (s : State) :
    (eonCommon tpon pion s).result = s.result := rfl
@[simp] theorem eonCommon_inbox (tpon : Bool) (pion : Block) (s : State) :
    (eonCommon tpon pion s).inbox = s.inbox := rfl
@[simp] theorem eonCommon_draws (tpon : Bool) (pion : Block) (s : State) :
    (eonCommon tpon pion s).draws = s.draws := rfl

/-! ### eonVariantUpdate -/

/-- All that `eonVariantUpdate` may change. -/
theorem eonVariantUpdate_frame (var : BitVec 4) (pl pion : Block) (s : State) :
    eonVariantUpdate var pl pion s =
      { s with eon := (eonVariantUpdate var pl pion s).eon } := by
  unfold eonVariantUpdate; split <;> rfl

@[simp] theorem eonVariantUpdate_reg (var : BitVec 4) (pl pion : Block) (s : State) :
    (eonVariantUpdate var pl pion s).reg = s.reg := (congrArg (fun x : State => x.reg) (eonVariantUpdate_frame var pl pion s) :)
@[simp] theorem eonVariantUpdate_ps (var : BitVec 4) (pl pion : Block) (s : State) :
    (eonVariantUpdate var pl pion s).ps = s.ps := (congrArg (fun x : State => x.ps) (eonVariantUpdate_frame var pl pion s) :)
@[simp] theorem eonVariantUpdate_ptyn (var : BitVec 4) (pl pion : Block) (s : State) :
    (eonVariantUpdate var pl pion s).ptyn = s.ptyn := (congrArg (fun x : State => x.ptyn) (eonVariantUpdate_frame var pl pion s) :)
@[simp] theorem eonVariantUpdate_rt (var : BitVec 4) (pl pion : Block) (s : State) :
    (eonVariantUpdate var pl pion s).rt = s.rt := (congrArg (fun x : State => x.rt) (eonVariantUpdate_frame var pl pion s) :)
@[simp] theorem eonVariantUpdate_slot (var : BitVec 4) (pl pion : Block) (s : State) :
    (eonVariantUpdate var pl pion s).slot = s.slot := (congrArg (fun x : State => x.slot) (eonVariantUpdate_frame var pl pion s) :)
@[simp] theorem eonVariantUpdate_timeAvailable (var : BitVec 4) (pl pion : Block) (s : State) :
    (eonVariantUpdate var pl pion s).timeAvailable = s.timeAvailable := (congrArg (fun x : State => x.timeAvailable) (eonVariantUpdate_frame var pl pion s) :)
@[simp] theorem eonVariantUpdate_time (var : BitVec 4) (pl pion : Block) (s : State) :
    (eonVariantUpdate var pl pion s).time = s.time := (congrArg (fun x : State => x.time) (eonVariantUpdate_frame var pl pion s) :)
@[simp] theorem eonVariantUpdate_rtToggle (var : BitVec 4) (pl pion : Block) (s : State) :
    (eonVariantUpdate var pl pion s).rtToggle = s.rtToggle := (congrArg (fun x : State => x.rtToggle) (eonVariantUpdate_frame var pl pion s) :)
@[simp] theorem eonVariantUpdate_ptynToggle (var : BitVec 4) (pl pion : Block) (s : State) :
    (eonVariantUpdate var pl pion s).ptynToggle = s.ptynToggle := (congrArg (fun x : State => x.ptynToggle) (eonVariantUpdate_frame var pl pion s) :)
@[simp] theorem eonVariantUpdate_pending (var : BitVec 4) (pl pion : Block) (s : State) :
    (eonVariantUpdate var pl pion s).pending = s.pending := (congrArg (fun x : State => x.pending) (eonVariantUpdate_frame var pl pion s) :)
@[simp] theorem eonVariantUpdate_even (var : BitVec 4) (pl pion : Block) (s : State) :
    (eonVariantUpdate var pl pion s).even = s.even := (congrArg (fun x : State => x.even) (eonVariantUpdate_frame var pl pion s) :)
@[simp] theorem eonVariantUpdate_cont (var : BitVec 4) (pl pion : Block) (s : State) :
    (eonVariantUpdate var pl pion s).cont = s.cont := (congrArg (fun x : State => x.cont) (eonVariantUpdate_frame var pl pion s) :)
@[simp] theorem eonVariantUpdate_cur (var : BitVec 4) (pl pion : Block) (s : State) :
    (eonVariantUpdate var pl pion s).cur = s.cur := (congrArg (fun x : State => x.cur) (eonVariantUpdate_frame var pl pion s) :)
@[simp] theorem eonVariantUpdate_result (var : BitVec 4) (pl pion : Block) (s : State) :
    (eonVariantUpdate var pl pion s).result = s.result := (congrArg (fun x : State => x.result) (eonVariantUpdate_frame var pl pion s) :)
@[simp] theorem eonVariantUpdate_inbox (var : BitVec 4) (pl pion : Block) (s : State) :
    (eonVariantUpdate var pl pion s).inbox = s.inbox := (congrArg (fun x : State => x.inbox) (eonVariantUpdate_frame var pl pion s) :)
@[simp] theorem eonVariantUpdate_draws (var : BitVec 4) (pl pion : Block) (s : State) :
    (eonVariantUpdate var pl pion s).draws = s.draws := (congrArg (fun x : State => x.draws) (eonVariantUpdate_frame var pl pion s) :)

/-! ### radiotextWrite -/

@[simp] theorem radiotextWrite_reg (fl tog : Bool) (seg : BitVec 4) (cs : List Byte) (s : State) :
    (radiotextWrite fl tog seg cs s).reg = s.reg := rfl
@[simp] theorem radiotextWrite_ps (fl tog : Bool) (seg : BitVec 4) (cs : List Byte) (s : State) :
    (radiotextWrite fl tog seg cs s).ps = s.ps := rfl
@[simp] theorem radiotextWrite_ptyn (fl tog : Bool) (seg : BitVec 4) (cs : List Byte) (s : State) :
    (radiotextWrite fl tog seg cs s).ptyn = s.ptyn := rfl
@[simp] theorem radiotextWrite_rt (fl tog : Bool) (seg : BitVec 4) (cs : List Byte) (s : State) :
    (radiotextWrite fl tog seg cs s).rt = segWrite .rt seg.toNat cs (if fl then clearedBuffer else s.rt) := rfl
@[simp] theorem radiotextWrite_slot (fl tog : Bool) (seg : BitVec 4) (cs : List Byte) (s : State) :
    (radiotextWrite fl tog seg cs s).slot = s.slot := rfl
@[simp] theorem radiotextWrite_eon (fl tog : Bool) (seg : BitVec 4) (cs : List Byte) (s : State) :
    (radiotextWrite fl tog seg cs s).eon = s.eon := rfl
@[simp] theorem radiotextWrite_timeAvailable (fl tog : Bool) (seg : BitVec 4) (cs : List Byte) (s : State) :
    (radiotextWrite fl tog seg cs s).timeAvailable = s.timeAvailable := rfl
@[simp] theorem radiotextWrite_time (fl tog : Bool) (seg : BitVec 4) (cs : List Byte) (s : State) :
    (radiotextWrite fl tog seg cs s).time = s.time := rfl
@[simp] theorem radiotextWrite_rtToggle (fl tog : Bool) (seg : BitVec 4) (cs : List Byte) (s : State) :
    (radiotextWrite fl tog seg cs s).rtToggle = tog := rfl
@[simp] theorem radiotextWrite_ptynToggle (fl tog : Bool) (seg : BitVec 4) (cs : List Byte) (s : State) :
    (radiotextWrite fl tog seg cs s).ptynToggle = s.ptynToggle := rfl
@[simp] theorem radiotextWrite_pending (fl tog : Bool) (seg : BitVec 4) (cs : List Byte) (s : State) :
    (radiotextWrite fl tog seg cs s).pending = s.pending := rfl
@[simp] theorem radiotextWrite_even (fl tog : Bool) (seg : BitVec 4) (cs : List Byte) (s : State) :
    (radiotextWrite fl tog seg cs s).even = s.even := rfl
@[simp] theorem radiotextWrite_cont (fl tog : Bool) (seg : BitVec 4) (cs : List Byte) (s : State) :
    (radiotextWrite fl tog seg cs s).cont = s.cont := rfl
@[simp] theorem radiotextWrite_cur (fl tog : Bool) (seg : BitVec 4) (cs : List Byte) (s : State) :
    (radiotextWrite fl tog seg cs s).cur = s.cur := rfl
@[simp] theorem radiotextWrite_result (fl tog : Bool) (seg : BitVec 4) (cs : List Byte) (s : State) :
    (radiotextWrite fl tog seg cs s).result = s.result := rfl
@[simp] theorem radiotextWrite_inbox (fl tog : Bool) (seg : BitVec 4) (cs : List Byte) (s : State) :
    (radiotextWrite fl tog seg cs s).inbox = s.inbox := rfl
@[simp] theorem radiotextWrite_draws (fl tog : Bool) (seg : BitVec 4) (cs : List Byte) (s : State) :
    (radiotextWrite fl tog seg cs s).draws = s.draws := rfl

/-! ### typeNameWrite -/

@[simp] theorem typeNameWrite_reg (tog : Bool) (seg : BitVec 1) (cs : List Byte) (s : State) :
    (typeNameWrite tog seg cs s).reg = s.reg := rfl
@[simp] theorem typeNameWrite_ps (tog : Bool) (seg : BitVec 1) (cs : List Byte) (s : State) :
    (typeNameWrite tog seg cs s).ps = s.ps := rfl
@[simp] theorem typeNameWrite_ptyn (tog : Bool) (seg : BitVec 1) (cs : List Byte) (s : State) :
    (typeNameWrite tog seg cs s).ptyn = segWrite .ptyn seg.toNat cs (if flips s.ptynToggle tog then clearedBuffer else s.ptyn) := rfl
@[simp] theorem typeNameWrite_rt (tog : Bool) (seg : BitVec 1) (cs : List Byte) (s : State) :
    (typeNameWrite tog seg cs s).rt = s.rt := rfl
@[simp] theorem typeNameWrite_slot (tog : Bool) (seg : BitVec 1) (cs : List Byte) (s : State) :
    (typeNameWrite tog seg cs s).slot = s.slot := rfl
@[simp] theorem typeNameWrite_eon (tog : Bool) (seg : BitVec 1) (cs : List Byte) (s : State) :
    (typeNameWrite tog seg cs s).eon = s.eon := rfl
@[simp] theorem typeNameWrite_timeAvailable (tog : Bool) (seg : BitVec 1) (cs : List Byte) (s : State) :
    (typeNameWrite tog seg cs s).timeAvailable = s.timeAvailable := rfl
@[simp] theorem typeNameWrite_time (tog : Bool) (seg : BitVec 1) (cs : List Byte) (s : State) :
    (typeNameWrite tog seg cs s).time = s.time := rfl
@[simp] theorem typeNameWrite_rtToggle (tog : Bool) (seg : BitVec 1) (cs : List Byte) (s : State) :
    (typeNameWrite tog seg cs s).rtToggle = s.rtToggle := rfl
@[simp] theorem typeNameWrite_ptynToggle (tog : Bool) (seg : BitVec 1) (cs : List Byte) (s : State) :
    (typeNameWrite tog seg cs s).ptynToggle = tog := rfl
@[simp] theorem typeNameWrite_pending (tog : Bool) (seg : BitVec 1) (cs : List Byte) (s : State) :
    (typeNameWrite tog seg cs s).pending = s.pending := rfl
@[simp] theorem typeNameWrite_even (tog : Bool) (seg : BitVec 1) (cs : List Byte) (s : State) :
    (typeNameWrite tog seg cs s).even = s.even := rfl
@[simp] theorem typeNameWrite_cont (tog : Bool) (seg : BitVec 1) (cs : List Byte) (s : State) :
    (typeNameWrite tog seg cs s).cont = s.cont := rfl
@[simp] theorem typeNameWrite_cur (tog : Bool) (seg : BitVec 1) (cs : List Byte) (s : State) :
    (typeNameWrite tog seg cs s).cur = s.cur := rfl
@[simp] theorem typeNameWrite_result (tog : Bool) (seg : BitVec 1) (cs : List Byte) (s : State) :
    (typeNameWrite tog seg cs s).result = s.result := rfl
@[simp] theorem typeNameWrite_inbox (tog : Bool) (seg : BitVec 1) (cs : List Byte) (s : State) :
    (typeNameWrite tog seg cs s).inbox = s.inbox := rfl
@[simp] theorem typeNameWrite_draws (tog : Bool) (seg : BitVec 1) (cs : List Byte) (s : State) :
    (typeNameWrite tog seg cs s).draws = s.draws := rfl

/-! ### runRest -/

/-- All that `runRest` may change. -/
theorem runRest_frame (r : Rest) (s : State) :
    runRest r s =
      { s with rt := (runRest r s).rt, rtToggle := (runRest r s).rtToggle } := by
  cases r <;> rfl

@[simp] theorem runRest_reg (r : Rest) (s : State) :
    (runRest r s).reg = s.reg := (congrArg (fun x : State => x.reg) (runRest_frame r s) :)
@[simp] theorem runRest_ps (r : Rest) (s : State) :
    (runRest r s).ps = s.ps := (congrArg (fun x : State => x.ps) (runRest_frame r s) :)
@[simp] theorem runRest_ptyn (r : Rest) (s : State) :
    (runRest r s).ptyn = s.ptyn := (congrArg (fun x : State => x.ptyn) (runRest_frame r s) :)
@[simp] theorem runRest_slot (r : Rest) (s : State) :
    (runRest r s).slot = s.slot := (congrArg (fun x : State => x.slot) (runRest_frame r s) :)
@[simp] theorem runRest_eon (r : Rest) (s : State) :
    (runRest r s).eon = s.eon := (congrArg (fun x : State => x.eon) (runRest_frame r s) :)
@[simp] theorem runRest_timeAvailable (r : Rest) (s : State) :
    (runRest r s).timeAvailable = s.timeAvailable := (congrArg (fun x : State => x.timeAvailable) (runRest_frame r s) :)
@[simp] theorem runRest_time (r : Rest) (s : State) :
    (runRest r s).time = s.time := (congrArg (fun x : State => x.time) (runRest_frame r s) :)
@[simp] theorem runRest_ptynToggle (r : Rest) (s : State) :
    (runRest r s).ptynToggle = s.ptynToggle := (congrArg (fun x : State => x.ptynToggle) (runRest_frame r s) :)
@[simp] theorem runRest_pending (r : Rest) (s : State) :
    (runRest r s).pending = s.pending := (congrArg (fun x : State => x.pending) (runRest_frame r s) :)
@[simp] theorem runRest_even (r : Rest) (s : State) :
    (runRest r s).even = s.even := (congrArg (fun x : State => x.even) (runRest_frame r s) :)
@[simp] theorem runRest_cont (r : Rest) (s : State) :
    (runRest r s).cont = s.cont := (congrArg (fun x : State => x.cont) (runRest_frame r s) :)
@[simp] theorem runRest_cur (r : Rest) (s : State) :
    (runRest r s).cur = s.cur := (congrArg (fun x : State => x.cur) (runRest_frame r s) :)
@[simp] theorem runRest_result (r : Rest) (s : State) :
    (runRest r s).result = s.result := (congrArg (fun x : State => x.result) (runRest_frame r s) :)
@[simp] theorem runRest_inbox (r : Rest) (s : State) :
    (runRest r s).inbox = s.inbox := (congrArg (fun x : State => x.inbox) (runRest_frame r s) :)
@[simp] theorem runRest_draws (r : Rest) (s : State) :
    (runRest r s).draws = s.draws := (congrArg (fun x : State => x.draws) (runRest_frame r s) :)

/-! ### emit -/

/-- All that `emit` may change. -/
theorem emit_frame (k : EventKind) (n : BitVec 8) (f : Bool) (w1 w2 : Block) (r : Rest) (s : State) :
    emit k n f w1 w2 r s =
      { s with rt := (emit k n f w1 w2 r s).rt, rtToggle := (emit k n f w1 w2 r s).rtToggle, pending := (emit k n f w1 w2 r s).pending } := by
  unfold emit
  split
  · rfl
  · cases r <;> rfl

@[simp] theorem emit_reg (k : EventKind) (n : BitVec 8) (f : Bool) (w1 w2 : Block) (r : Rest) (s : State) :
    (emit k n f w1 w2 r s).reg = s.reg := (congrArg (fun x : State => x.reg) (emit_frame k n f w1 w2 r s) :)
@[simp] theorem emit_ps (k : EventKind) (n : BitVec 8) (f : Bool) (w1 w2 : Block) (r : Rest) (s : State) :
    (emit k n f w1 w2 r s).ps = s.ps := (congrArg (fun x : State => x.ps) (emit_frame k n f w1 w2 r s) :)
@[simp] theorem emit_ptyn (k : EventKind) (n : BitVec 8) (f : Bool) (w1 w2 : Block) (r : Rest) (s : State) :
    (emit k n f w1 w2 r s).ptyn = s.ptyn := (congrArg (fun x : State => x.ptyn) (emit_frame k n f w1 w2 r s) :)
@[simp] theorem emit_slot (k : EventKind) (n : BitVec 8) (f : Bool) (w1 w2 : Block) (r : Rest) (s : State) :
    (emit k n f w1 w2 r s).slot = s.slot := (congrArg (fun x : State => x.slot) (emit_frame k n f w1 w2 r s) :)
@[simp] theorem emit_eon (k : EventKind) (n : BitVec 8) (f : Bool) (w1 w2 : Block) (r : Rest) (s : State) :
    (emit k n f w1 w2 r s).eon = s.eon := (congrArg (fun x : State => x.eon) (emit_frame k n f w1 w2 r s) :)
@[simp] theorem emit_timeAvailable (k : EventKind) (n : BitVec 8) (f : Bool) (w1 w2 : Block) (r : Rest) (s : State) :
    (emit k n f w1 w2 r s).timeAvailable = s.timeAvailable := (congrArg (fun x : State => x.timeAvailable) (emit_frame k n f w1 w2 r s) :)
@[simp] theorem emit_time (k : EventKind) (n : BitVec 8) (f : Bool) (w1 w2 : Block) (r : Rest) (s : State) :
    (emit k n f w1 w2 r s).time = s.time := (congrArg (fun x : State => x.time) (emit_frame k n f w1 w2 r s) :)
@[simp] theorem emit_ptynToggle (k : EventKind) (n : BitVec 8) (f : Bool) (w1 w2 : Block) (r : Rest) (s : State) :
    (emit k n f w1 w2 r s).ptynToggle = s.ptynToggle := (congrArg (fun x : State => x.ptynToggle) (emit_frame k n f w1 w2 r s) :)
@[simp] theorem emit_even (k : EventKind) (n : BitVec 8) (f : Bool) (w1 w2 : Block) (r : Rest) (s : State) :
    (emit k n f w1 w2 r s).even = s.even := (congrArg (fun x : State => x.even) (emit_frame k n f w1 w2 r s) :)
@[simp] theorem emit_cont (k : EventKind) (n : BitVec 8) (f : Bool) (w1 w2 : Block) (r : Rest) (s : State) :
    (emit k n f w1 w2 r s).cont = s.cont := (congrArg (fun x : State => x.cont) (emit_frame k n f w1 w2 r s) :)
@[simp] theorem emit_cur (k : EventKind) (n : BitVec 8) (f : Bool) (w1 w2 : Block) (r : Rest) (s : State) :
    (emit k n f w1 w2 r s).cur = s.cur := (congrArg (fun x : State => x.cur) (emit_frame k n f w1 w2 r s) :)
@[simp] theorem emit_result (k : EventKind) (n : BitVec 8) (f : Bool) (w1 w2 : Block) (r : Rest) (s : State) :
    (emit k n f w1 w2 r s).result = s.result := (congrArg (fun x : State => x.result) (emit_frame k n f w1 w2 r s) :)
@[simp] theorem emit_inbox (k : EventKind) (n : BitVec 8) (f : Bool) (w1 w2 : Block) (r : Rest) (s : State) :
    (emit k n f w1 w2 r s).inbox = s.inbox := (congrArg (fun x : State => x.inbox) (emit_frame k n f w1 w2 r s) :)
@[simp] theorem emit_draws (k : EventKind) (n : BitVec 8) (f : Bool) (w1 w2 : Block) (r : Rest) (s : State) :
    (emit k n f w1 w2 r s).draws = s.draws := (congrArg (fun x : State => x.draws) (emit_frame k n f w1 w2 r s) :)

/-! ### answer -/

@[simp] theorem answer_reg (r : Result) (s : State) : (answer r s).reg = s.reg := rfl
@[simp] theorem answer_ps (r : Result) (s : State) : (answer r s).ps = s.ps := rfl
@[simp] theorem answer_ptyn (r : Result) (s : State) : (answer r s).ptyn = s.ptyn := rfl
@[simp] theorem answer_rt (r : Result) (s : State) : (answer r s).rt = s.rt := rfl
@[simp] theorem answer_slot (r : Result) (s : State) : (answer r s).slot = s.slot := rfl
@[simp] theorem answer_eon (r : Result) (s : State) : (answer r s).eon = s.eon := rfl
@[simp] theorem answer_timeAvailable (r : Result) (s : State) : (answer r s).timeAvailable = s.timeAvailable := rfl
@[simp] theorem answer_time (r : Result) (s : State) : (answer r s).time = s.time := rfl
@[simp] theorem answer_rtToggle (r : Result) (s : State) : (answer r s).rtToggle = s.rtToggle := rfl
@[simp] theorem answer_ptynToggle (r : Result) (s : State) : (answer r s).ptynToggle = s.ptynToggle := rfl
@[simp] theorem answer_pending (r : Result) (s : State) : (answer r s).pending = s.pending := rfl
@[simp] theorem answer_even (r : Result) (s : State) : (answer r s).even = s.even := rfl
@[simp] theorem answer_cont (r : Result) (s : State) : (answer r s).cont = s.cont := rfl
@[simp] theorem answer_cur (r : Result) (s : State) : (answer r s).cur = s.cur := rfl
@[simp] theorem answer_result (r : Result) (s : State) : (answer r s).result = r := rfl
@[simp] theorem answer_inbox (r : Result) (s : State) : (answer r s).inbox = s.inbox := rfl
@[simp] theorem answer_draws (r : Result) (s : State) : (answer r s).draws = s.draws := rfl

/-! ### stationReset -/

@[simp] theorem stationReset_reg (s : State) : (stationReset s).reg = Scalars.zero := rfl
@[simp] theorem stationReset_ps (s : State) : (stationReset s).ps = [] := rfl
@[simp] theorem stationReset_ptyn (s : State) : (stationReset s).ptyn = [] := rfl
@[simp] theorem stationReset_rt (s : State) : (stationReset s).rt = [] := rfl
@[simp] theorem stationReset_slot (s : State) : (stationReset s).slot = Slots.zero := rfl
@[simp] theorem stationReset_eon (s : State) : (stationReset s).eon = EonRecord.zero := rfl
@[simp] theorem stationReset_timeAvailable (s : State) : (stationReset s).timeAvailable = false := rfl
@[simp] theorem stationReset_time (s : State) : (stationReset s).time = s.time := rfl
@[simp] theorem stationReset_rtToggle (s : State) : (stationReset s).rtToggle = false := rfl
@[simp] theorem stationReset_ptynToggle (s : State) : (stationReset s).ptynToggle = false := rfl
@[simp] theorem stationReset_pending (s : State) : (stationReset s).pending = s.pending := rfl
@[simp] theorem stationReset_even (s : State) : (stationReset s).even = s.even := rfl
@[simp] theorem stationReset_cont (s : State) : (stationReset s).cont = s.cont := rfl
@[simp] theorem stationReset_cur (s : State) : (stationReset s).cur = s.cur := rfl
@[simp] theorem stationReset_result (s : State) : (stationReset s).result = s.result := rfl
@[simp] theorem stationReset_inbox (s : State) : (stationReset s).inbox = s.inbox := rfl
@[simp] theorem stationReset_draws (s : State) : (stationReset s).draws = s.draws := rfl

/-! ### present -/

@[simp] theorem present_reg (p : PortWord) (s : State) : (present p s).reg = s.reg := rfl
@[simp] theorem present_ps (p : PortWord) (s : State) : (present p s).ps = s.ps := rfl
@[simp] theorem present_ptyn (p : PortWord) (s : State) : (present p s).ptyn = s.ptyn := rfl
@[simp] theorem present_rt (p : PortWord) (s : State) : (present p s).rt = s.rt := rfl
@[simp] theorem present_slot (p : PortWord) (s : State) : (present p s).slot = s.slot := rfl
@[simp] theorem present_eon (p : PortWord) (s : State) : (present p s).eon = s.eon := rfl
@[simp] theorem present_timeAvailable (p : PortWord) (s : State) :
    (present p s).timeAvailable = s.timeAvailable := rfl
@[simp] theorem present_time (p : PortWord) (s : State) : (present p s).time = s.time := rfl
@[simp] theorem present_rtToggle (p : PortWord) (s : State) : (present p s).rtToggle = s.rtToggle := rfl
@[simp] theorem present_ptynToggle (p : PortWord) (s : State) : (present p s).ptynToggle = s.ptynToggle := rfl
@[simp] theorem present_pending (p : PortWord) (s : State) : (present p s).pending = s.pending := rfl
@[simp] theorem present_even (p : PortWord) (s : State) : (present p s).even = s.even := rfl
@[simp] theorem present_cont (p : PortWord) (s : State) : (present p s).cont = s.cont := rfl
@[simp] theorem present_cur (p : PortWord) (s : State) : (present p s).cur = s.cur := rfl
@[simp] theorem present_result (p : PortWord) (s : State) : (present p s).result = s.result := rfl
@[simp] theorem present_inbox (p : PortWord) (s : State) : (present p s).inbox = .op p :: s.inbox := rfl
@[simp] theorem present_draws (p : PortWord) (s : State) : (present p s).draws = s.draws := rfl

end Sys2Proof.Machine
end

