-- ==== Sys2Proof/Laws/Ops.lean ====
section
/-! SUPPORT. For each shared operation, once, everything it can do. -/

namespace Sys2Proof.Machine

/-! ### The event interface -/

/-- GROUP, RESET and EVCFG: a next state comes only from an idle block, and is the operation's effect. -/
theorem whenIdle_next {f : State → State} {s t : State} (h : whenIdle f s = .next t) : s.pending = none ∧ t = f s := by
  unfold whenIdle at h
  split at h
  · cases h
  · rename_i hp
    cases h
    exact ⟨hp, rfl⟩

/-- An idle block runs GROUP, RESET and EVCFG. -/
theorem whenIdle_idle (f : State → State) {s : State} (h : s.pending = none) : whenIdle f s = .next (f s) := by
  unfold whenIdle
  rw [h]

/-- While an event waits, GROUP, RESET and EVCFG are refused. -/
theorem whenIdle_pending (f : State → State) {s : State} {p : Pending} (h : s.pending = some p) :
    whenIdle f s = .refused .eventPending := by
  unfold whenIdle
  rw [h]

/-- Raising an event: suspended with the tuple on the EVT port, or dropped and the rest of the operation run. -/
theorem emit_cases (k : EventKind) (n : BitVec 8) (f : Bool) (w1 w2 : Block) (r : Rest) (s : State) :
    (eventEnabled s.even k = true ∧
      emit k n f w1 w2 r s = { s with pending := some ⟨⟨k, n, f, w1, w2⟩, r⟩ }) ∨
    (eventEnabled s.even k = false ∧ emit k n f w1 w2 r s = runRest r s) := by
  by_cases h : eventEnabled s.even k = true
  · exact .inl ⟨h, by simp [emit, h]⟩
  · exact .inr ⟨by simpa using h, by simp [emit, h]⟩

/-- The acknowledgement: it has a next state exactly when an event waits, the rest of its operation run. -/
theorem acknowledge_next {s t : State} (h : acknowledge s = .next t) :
    ∃ p, s.pending = some p ∧ t = runRest p.rest { s with pending := none } := by
  unfold acknowledge at h
  split at h
  · rename_i p hp
    cases h
    exact ⟨p, hp, rfl⟩
  · cases h

/-- A suspended operation carried to its end is the operation that raised no event. -/
theorem settled_emit (k : EventKind) (n : BitVec 8) (f : Bool) (w1 w2 : Block) (r : Rest) {s : State}
    (h : s.pending = none) : settled (emit k n f w1 w2 r s) = runRest r s := by
  rcases emit_cases k n f w1 w2 r s with ⟨_, he⟩ | ⟨_, he⟩
  · rw [he]
    show runRest r { s with pending := none } = runRest r s
    rw [← h]
  · rw [he]
    unfold settled
    rw [runRest_pending, h]

/-! ### The step -/

/-- One step: idle without a request, else the first request served on the state without it. -/
theorem step_cases (s : State) :
    (s.inbox = [] ∧ step s = .next s) ∨
    ∃ r rest, s.inbox = r :: rest ∧ step s = serve r { s with inbox := rest } := by
  unfold step nextRequest
  cases h : s.inbox with
  | nil => exact .inl ⟨rfl, rfl⟩
  | cons r rest => exact .inr ⟨r, rest, rfl, rfl⟩

/-- A served request with a next state: an acknowledgement, or an operation the decoder reads. -/
theorem serve_next {r : Request} {s t : State} (h : serve r s = .next t) :
    (r = .ack ∧ acknowledge s = .next t) ∨ ∃ p i, r = .op p ∧ decode p = .ok i ∧ exec i s = .next t := by
  cases r with
  | ack => exact .inl ⟨rfl, h⟩
  | op p =>
    unfold serve at h
    cases hd : decode p with
    | ok i => exact .inr ⟨p, i, rfl, hd, by simpa [hd] using h⟩
    | error e => simp [hd] at h

/-! ### Registers -/

/-- 1A's own update: the linkage actuator always, the scalars of the selected variant, no other register. -/
theorem slowUpdate_reg (la : Bool) (var : BitVec 3) (p : BitVec 12) (s : State) :
    (slowUpdate la var p s).reg =
      { s.reg with
        li := la,
        opc := if var = 0 then slowOpc p else s.reg.opc,
        ecc := if var = 0 then slowEcc p else s.reg.ecc,
        tmcId := if var = 1 then p else s.reg.tmcId,
        pagId := if var = 2 then p else s.reg.pagId,
        lang := if var = 3 then p else s.reg.lang } := by
  have hv : ∀ v : BitVec 3, v = 0 ∨ v = 1 ∨ v = 2 ∨ v = 3 ∨ v = 4 ∨ v = 5 ∨ v = 6 ∨ v = 7 := by decide
  rcases hv var with h | h | h | h | h | h | h | h <;> subst h <;> rfl

/-- The clock update: the fields it always decodes, and the date by the formula or, below MJD 15079, by one draw. -/
theorem clockUpdate_cases (mjd : BitVec 17) (hr : BitVec 5) (mn : BitVec 6) (sg : Bool) (mg : BitVec 5) (s : State) :
    (15079 ≤ mjd.toNat ∧
      (clockUpdate mjd hr mn sg mg s).time =
        ⟨mn, hr, dayOfMjd mjd.toNat, monthOfMjd mjd.toNat, yearOfMjd mjd.toNat, weekdayOfMjd mjd.toNat,
          tzMinutes sg mg⟩ ∧
      (clockUpdate mjd hr mn sg mg s).draws = s.draws) ∨
    (mjd.toNat < 15079 ∧
      (clockUpdate mjd hr mn sg mg s).time =
        ⟨mn, hr, Config.freeDay s.draws, Config.freeMonth s.draws, Config.freeYear s.draws, weekdayOfMjd mjd.toNat,
          tzMinutes sg mg⟩ ∧
      (clockUpdate mjd hr mn sg mg s).draws = s.draws + 1) := by
  by_cases h : 15079 ≤ mjd.toNat
  · exact .inl ⟨h, by simp [clockUpdate, firstDatedMjd, h], by simp [clockUpdate, firstDatedMjd, h]⟩
  · exact .inr ⟨by omega, by simp [clockUpdate, firstDatedMjd, h], by simp [clockUpdate, firstDatedMjd, h]⟩

/-- 3A's slot write: the slot the AID selects overwritten whole, or nothing. -/
theorem slotUpdate_cases (cig : BitVec 5) (msg aid : Block) (s : State) :
    (∃ k, slotOf Config.aids aid cig = some k ∧
      slotUpdate cig msg aid s = { s with slot := setSlot s.slot k ⟨cig, msg, aid⟩ }) ∨
    (slotOf Config.aids aid cig = none ∧ slotUpdate cig msg aid s = s) := by
  cases h : slotOf Config.aids aid cig with
  | none => exact .inr ⟨rfl, by simp [slotUpdate, h]⟩
  | some k => exact .inl ⟨k, rfl, by simp [slotUpdate, h]⟩

/-- One slot written, the others untouched. -/
theorem getSlot_setSlot (sl : Slots) (k j : SlotId) (v : AppIdSlot) :
    getSlot (setSlot sl k v) j = if j = k then v else getSlot sl j := by
  cases k <;> cases j <;> rfl

/-- A slot is selected only by its own application id, or, for TMC, by AID 0 announced for group 8A. -/
theorem slotOf_some {p : AidParams} {aid : Block} {cig : BitVec 5} {k : SlotId} (h : slotOf p aid cig = some k) :
    (k = .ert ∧ aid = p.ert) ∨ (k = .rtp ∧ aid = p.rtp) ∨ (k = .irds ∧ aid = p.irds) ∨
      (k = .tmc ∧ (aid = p.tmc0 ∨ aid = p.tmc1 ∨ aid = p.tmc2)) ∨ (k = .tmc ∧ aid = 0 ∧ cig = 16) := by
  unfold slotOf at h
  split at h
  · rename_i h1
    exact .inl ⟨(Option.some.inj h).symm, h1⟩
  split at h
  · rename_i h1
    exact .inr (.inl ⟨(Option.some.inj h).symm, h1⟩)
  split at h
  · rename_i h1
    exact .inr (.inr (.inl ⟨(Option.some.inj h).symm, h1⟩))
  split at h
  · rename_i h1
    exact .inr (.inr (.inr (.inl ⟨(Option.some.inj h).symm, h1⟩)))
  split at h
  · rename_i h1
    exact .inr (.inr (.inr (.inr ⟨(Option.some.inj h).symm, h1⟩)))
  · cases h

/-- The 16 variants of a 14A group. -/
theorem eonVariant_cases (v : BitVec 4) :
    v = 0 ∨ v = 1 ∨ v = 2 ∨ v = 3 ∨ v = 4 ∨ v = 5 ∨ v = 6 ∨ v = 7 ∨ v = 8 ∨ v = 9 ∨ v = 10 ∨ v = 11 ∨ v = 12 ∨ v = 13 ∨
      v = 14 ∨ v = 15 := by
  revert v; decide

/-- Which variants raise an event, and with which first parameter. -/
theorem eonEventParam_eq (v : BitVec 4) :
    eonEventParam v =
      if 4 ≤ v.toNat ∧ v.toNat ≤ 9 then
        some (if v.toNat = 4 then 1 else if v.toNat ≤ 8 then 2 else 3)
      else none := by
  revert v; decide

/-- The variant's own writes: the other-network record alone, by variant. -/
theorem eonVariantUpdate_eq (v : BitVec 4) (p q : Block) (s : State) :
    eonVariantUpdate v p q s =
      { s with eon := { s.eon with
          ps := if v.toNat ≤ 3 then segWrite .eonPs v.toNat [p.extractLsb' 8 8, p.extractLsb' 0 8] s.eon.ps else s.eon.ps,
          li := if v = 12 then p ++ q else s.eon.li,
          pty := if v = 13 then p.extractLsb' 11 5 else s.eon.pty,
          ta := if v = 13 then p.getLsbD 0 else s.eon.ta } } := by
  rcases eonVariant_cases v with h | h | h | h | h | h | h | h | h | h | h | h | h | h | h | h <;> subst h <;> rfl

/-- The bit `S.DI[3 - seg]` takes the flag, the other three keep their value. -/
theorem setDi_bit (old : BitVec 4) (seg : BitVec 2) (di : Bool) (k : Nat) (hk : k < 4) :
    (setDi old seg di).getLsbD k = if k = 3 - seg.toNat then di else old.getLsbD k := by
  revert old seg di
  interval_cases k <;> decide

/-! ### The container -/

/-- A load writes one slice, the others untouched. -/
theorem contSlice_contSet (c : Cont) (i : BitVec 2) (v : Slice) (j : Nat) (hj : j < 4) :
    contSlice (contSet c i v) j = if j = i.toNat then v else contSlice c j := by
  have hi : ∀ i : BitVec 2, i = 0 ∨ i = 1 ∨ i = 2 ∨ i = 3 := by decide
  rcases hi i with h | h | h | h <;> subst h <;> interval_cases j <;> rfl

/-- The stream written back into slices is the stream. -/
theorem contStream_contOfStream (w : BitVec 128) : contStream (contOfStream w) = w := by
  apply BitVec.eq_of_getLsbD_eq
  intro i hi
  simp only [contStream, contOfStream, BitVec.getLsbD_append, BitVec.getLsbD_extractLsb']
  by_cases h1 : i < 32
  · simp [h1]
  · by_cases h2 : i - 32 < 32
    · simp [h1, h2]; congr 1; omega
    · by_cases h3 : i - 32 - 32 < 32
      · simp [h1, h2, h3]; congr 1; omega
      · have h4 : i - 32 - 32 - 32 < 32 := by omega
        simp [h1, h2, h3, h4]; congr 1; omega

/-! ### The reader -/

/-- The cursors a read leaves behind a legal one are legal. -/
theorem readField_legal (c : Cont) {cur : Cursor} {size : Nat} (h : legalCursor cur = true) :
    legalCursor (readField c cur size).2 = true := by
  have hadv : ∀ si : BitVec 3, 1 ≤ si.toNat → si.toNat ≤ 4 → legalCursor (advanced si) = true := by decide
  have hmid : ∀ (si : BitVec 3) (b : BitVec 5), 1 ≤ si.toNat → si.toNat ≤ 4 →
      legalCursor { bitIndex := b, sliceIndex := si } = true := by
    intro si b h1 h2
    simp [legalCursor, h1, h2]
  have hsucc : ∀ si : BitVec 3, 1 ≤ si.toNat → si.toNat ≤ 4 → si ≠ 4 →
      1 ≤ (si + 1).toNat ∧ (si + 1).toNat ≤ 4 := by decide
  have hn : legalCursor (normalised cur) = true := by
    unfold normalised
    split
    · decide
    · exact h
  by_cases he : atEof (normalised cur) = true
  · simpa [readField, he] using hn
  · have hs : 1 ≤ (normalised cur).sliceIndex.toNat ∧ (normalised cur).sliceIndex.toNat ≤ 4 := by
      have hx := hn
      simp only [legalCursor, decide_eq_true_eq] at hx
      rcases hx with hx | hx | hx
      · exfalso
        have h0 : (normalised cur).sliceIndex = 0 := BitVec.eq_of_toNat_eq (by simpa using hx.1)
        have h1 : (normalised cur).bitIndex = 0 := BitVec.eq_of_toNat_eq (by simpa using hx.2)
        unfold normalised at h0 h1
        split at h0
        · revert h0; decide
        · rename_i hc
          rw [if_neg hc] at h1
          exact hc ⟨h0, h1⟩
      · exact hx
      · exfalso
        apply he
        have h6 : (normalised cur).sliceIndex = 6 := BitVec.eq_of_toNat_eq (by simpa using hx.1)
        simp [atEof, h6]
    simp only [readField, if_neg he]
    split
    · simp only
      split
      · exact hadv _ hs.1 hs.2
      · exact hmid _ _ hs.1 hs.2
    · split
      · rfl
      · rename_i h4
        exact hmid _ _ (hsucc _ hs.1 hs.2 h4).1 (hsucc _ hs.1 hs.2 h4).2

/-- The cursor a number read leaves behind a legal one is legal. -/
theorem readNumber_legal (c : Cont) {cur : Cursor} {w : Nat} (h : legalCursor cur = true) :
    legalCursor (readNumber c cur w).2 = true := by
  unfold readNumber
  split
  · exact h
  · exact readField_legal c h

/-- The cursor a label read leaves behind a legal one is legal. -/
theorem readLabel_legal (c : Cont) {cur : Cursor} (h : legalCursor cur = true) :
    legalCursor (readLabel c cur).2.2 = true := by
  unfold readLabel
  simp only
  split
  · rfl
  · simp only
    split
    · rfl
    · exact readNumber_legal c (readNumber_legal c h)

end Sys2Proof.Machine
end

