-- ==== Sys2Proof/Laws/Meanings.lean ====
section
/-! SUPPORT. For each group, RESET and EVCFG: on an idle block it completes, and with which state. A proof cites the
lemma and unfolds no meaning. -/

namespace Sys2Proof.Machine

theorem exec_group0A_idle (h : Head) (b : Basic) (afpair : Block) (ch0 ch1 : Byte) {s : State} (hp : s.pending =
    none) :
    exec (.group0A h b afpair ch0 ch1) s =
      .next (emit .af 0 true afpair 0 .nothing (psWrite b.seg ch0 ch1 (basicUpdate b (commonUpdate h s)))) := by
  unfold exec execGroup0A
  exact whenIdle_idle _ hp

theorem exec_group0B_idle (h : Head) (b : Basic) (ch0 ch1 : Byte) {s : State} (hp : s.pending = none) :
    exec (.group0B h b ch0 ch1) s = .next (psWrite b.seg ch0 ch1 (basicUpdate b (commonUpdate h s))) := by
  unfold exec execGroup0B
  exact whenIdle_idle _ hp

theorem exec_group15B_idle (h : Head) (b : Basic) {s : State} (hp : s.pending = none) :
    exec (.group15B h b) s = .next (basicUpdate b (commonUpdate h s)) := by
  unfold exec execGroup15B
  exact whenIdle_idle _ hp

theorem exec_group1A_idle (h : Head) (la : Bool) (var : BitVec 3) (payload : BitVec 12) (pin : Block) {s : State}
    (hp : s.pending = none) :
    exec (.group1A h la var payload pin) s = .next (pinUpdate pin (slowUpdate la var payload (commonUpdate h s))) := by
  unfold exec execGroup1A
  exact whenIdle_idle _ hp

theorem exec_group1B_idle (h : Head) (pin : Block) {s : State} (hp : s.pending = none) :
    exec (.group1B h pin) s = .next (pinUpdate pin (commonUpdate h s)) := by
  unfold exec execGroup1B
  exact whenIdle_idle _ hp

theorem exec_group4A_idle (h : Head) (mjd : BitVec 17) (hour : BitVec 5) (minute : BitVec 6) (tzSign : Bool) (tzMag
    : BitVec 5) {s : State} (hp : s.pending = none) :
    exec (.group4A h mjd hour minute tzSign tzMag) s =
      .next (
      if ctPayload mjd hour minute tzSign tzMag = 0 then commonUpdate h s
      else clockUpdate mjd hour minute tzSign tzMag (commonUpdate h s)) := by
  unfold exec execGroup4A
  exact whenIdle_idle _ hp

theorem exec_group7A_idle (h : Head) {s : State} (hp : s.pending = none) :
    exec (.group7A h) s = .next (commonUpdate h s) := by
  unfold exec execGroup7A
  exact whenIdle_idle _ hp

theorem exec_group9A_idle (h : Head) {s : State} (hp : s.pending = none) :
    exec (.group9A h) s = .next (commonUpdate h s) := by
  unfold exec execGroup9A
  exact whenIdle_idle _ hp

theorem exec_group13A_idle (h : Head) {s : State} (hp : s.pending = none) :
    exec (.group13A h) s = .next (commonUpdate h s) := by
  unfold exec execGroup13A
  exact whenIdle_idle _ hp

theorem exec_group15A_idle (h : Head) {s : State} (hp : s.pending = none) :
    exec (.group15A h) s = .next (commonUpdate h s) := by
  unfold exec execGroup15A
  exact whenIdle_idle _ hp

theorem exec_group2A_idle (h : Head) (tog : Bool) (seg : BitVec 4) (ch0 ch1 ch2 ch3 : Byte) {s : State} (hp :
    s.pending = none) :
    exec (.group2A h tog seg ch0 ch1 ch2 ch3) s =
      .next (
      if flips s.rtToggle tog then
        emit .rt 0 true 0 0 (.radiotext4 tog seg ch0 ch1 ch2 ch3) (commonUpdate h s)
      else radiotextWrite false tog seg [ch0, ch1, ch2, ch3] (commonUpdate h s)) := by
  unfold exec execGroup2A
  exact whenIdle_idle _ hp

theorem exec_group2B_idle (h : Head) (tog : Bool) (seg : BitVec 4) (ch0 ch1 : Byte) {s : State} (hp : s.pending =
    none) :
    exec (.group2B h tog seg ch0 ch1) s =
      .next (
      if flips s.rtToggle tog then emit .rt 0 false 0 0 (.radiotext2 tog seg ch0 ch1) (commonUpdate h s)
      else radiotextWrite false tog seg [ch0, ch1] (commonUpdate h s)) := by
  unfold exec execGroup2B
  exact whenIdle_idle _ hp

theorem exec_group10A_idle (h : Head) (tog : Bool) (seg : BitVec 1) (ch0 ch1 ch2 ch3 : Byte) {s : State} (hp :
    s.pending = none) :
    exec (.group10A h tog seg ch0 ch1 ch2 ch3) s = .next (typeNameWrite tog seg [ch0, ch1, ch2, ch3] (commonUpdate h s)) := by
  unfold exec execGroup10A
  exact whenIdle_idle _ hp

theorem exec_group3A_idle (h : Head) (cig : BitVec 5) (msg aid : Block) {s : State} (hp : s.pending = none) :
    exec (.group3A h cig msg aid) s =
      .next (
      emit (announcementKind Config.kind3A) (cig.setWidth 8) true msg aid .nothing
        (slotUpdate cig msg aid (commonUpdate h s))) := by
  unfold exec execGroup3A
  exact whenIdle_idle _ hp

theorem exec_group3B_idle (h : Head) (sub : BitVec 5) (d : Block) {s : State} (hp : s.pending = none) :
    exec (.group3B h sub d) s = .next (carrierB .oda h sub d s) := by
  unfold exec execGroup3B
  exact whenIdle_idle _ hp

theorem exec_group4B_idle (h : Head) (sub : BitVec 5) (d : Block) {s : State} (hp : s.pending = none) :
    exec (.group4B h sub d) s = .next (carrierB .oda h sub d s) := by
  unfold exec execGroup4B
  exact whenIdle_idle _ hp

theorem exec_group6A_idle (h : Head) (sub : BitVec 5) (c d : Block) {s : State} (hp : s.pending = none) :
    exec (.group6A h sub c d) s = .next (carrierA .oda h sub c d s) := by
  unfold exec execGroup6A
  exact whenIdle_idle _ hp

theorem exec_group6B_idle (h : Head) (sub : BitVec 5) (d : Block) {s : State} (hp : s.pending = none) :
    exec (.group6B h sub d) s = .next (carrierB .oda h sub d s) := by
  unfold exec execGroup6B
  exact whenIdle_idle _ hp

theorem exec_group7B_idle (h : Head) (sub : BitVec 5) (d : Block) {s : State} (hp : s.pending = none) :
    exec (.group7B h sub d) s = .next (carrierB .oda h sub d s) := by
  unfold exec execGroup7B
  exact whenIdle_idle _ hp

theorem exec_group8B_idle (h : Head) (sub : BitVec 5) (d : Block) {s : State} (hp : s.pending = none) :
    exec (.group8B h sub d) s = .next (carrierB .oda h sub d s) := by
  unfold exec execGroup8B
  exact whenIdle_idle _ hp

theorem exec_group9B_idle (h : Head) (sub : BitVec 5) (d : Block) {s : State} (hp : s.pending = none) :
    exec (.group9B h sub d) s = .next (carrierB .oda h sub d s) := by
  unfold exec execGroup9B
  exact whenIdle_idle _ hp

theorem exec_group10B_idle (h : Head) (sub : BitVec 5) (d : Block) {s : State} (hp : s.pending = none) :
    exec (.group10B h sub d) s = .next (carrierB .oda h sub d s) := by
  unfold exec execGroup10B
  exact whenIdle_idle _ hp

theorem exec_group11A_idle (h : Head) (sub : BitVec 5) (c d : Block) {s : State} (hp : s.pending = none) :
    exec (.group11A h sub c d) s = .next (carrierA .oda h sub c d s) := by
  unfold exec execGroup11A
  exact whenIdle_idle _ hp

theorem exec_group11B_idle (h : Head) (sub : BitVec 5) (d : Block) {s : State} (hp : s.pending = none) :
    exec (.group11B h sub d) s = .next (carrierB .oda h sub d s) := by
  unfold exec execGroup11B
  exact whenIdle_idle _ hp

theorem exec_group12A_idle (h : Head) (sub : BitVec 5) (c d : Block) {s : State} (hp : s.pending = none) :
    exec (.group12A h sub c d) s = .next (carrierA .oda h sub c d s) := by
  unfold exec execGroup12A
  exact whenIdle_idle _ hp

theorem exec_group12B_idle (h : Head) (sub : BitVec 5) (d : Block) {s : State} (hp : s.pending = none) :
    exec (.group12B h sub d) s = .next (carrierB .oda h sub d s) := by
  unfold exec execGroup12B
  exact whenIdle_idle _ hp

theorem exec_group13B_idle (h : Head) (sub : BitVec 5) (d : Block) {s : State} (hp : s.pending = none) :
    exec (.group13B h sub d) s = .next (carrierB .oda h sub d s) := by
  unfold exec execGroup13B
  exact whenIdle_idle _ hp

theorem exec_group5A_idle (h : Head) (sub : BitVec 5) (c d : Block) {s : State} (hp : s.pending = none) :
    exec (.group5A h sub c d) s = .next (carrierA .tdc h sub c d s) := by
  unfold exec execGroup5A
  exact whenIdle_idle _ hp

theorem exec_group5B_idle (h : Head) (sub : BitVec 5) (d : Block) {s : State} (hp : s.pending = none) :
    exec (.group5B h sub d) s = .next (carrierB .tdc h sub d s) := by
  unfold exec execGroup5B
  exact whenIdle_idle _ hp

theorem exec_group8A_idle (h : Head) (sub : BitVec 5) (c d : Block) {s : State} (hp : s.pending = none) :
    exec (.group8A h sub c d) s = .next (carrierA .tmc h sub c d s) := by
  unfold exec execGroup8A
  exact whenIdle_idle _ hp

theorem exec_group14A_idle (h : Head) (tpon : Bool) (var : BitVec 4) (payload pion : Block) {s : State} (hp :
    s.pending = none) :
    exec (.group14A h tpon var payload pion) s =
      .next (
      match eonEventParam var with
      | some n =>
        emit .eon n true payload pion .nothing
          (eonCommon tpon pion (eonVariantUpdate var payload pion (commonUpdate h s)))
      | none => eonCommon tpon pion (eonVariantUpdate var payload pion (commonUpdate h s))) := by
  unfold exec execGroup14A
  exact whenIdle_idle _ hp

theorem exec_group14B_idle (h : Head) (tpon taon : Bool) (pion : Block) {s : State} (hp : s.pending = none) :
    exec (.group14B h tpon taon pion) s =
      .next (
      let s' := eonCommon tpon pion (commonUpdate h s)
      { s' with eon := { s'.eon with ta := taon } }) := by
  unfold exec execGroup14B
  exact whenIdle_idle _ hp

theorem exec_reset_idle {s : State} (hp : s.pending = none) :
    exec (.reset) s = .next (answer .none (stationReset s)) := by
  unfold exec execReset
  exact whenIdle_idle _ hp

theorem exec_evCfg_idle (mask : BitVec 7) {s : State} (hp : s.pending = none) :
    exec (.evCfg mask) s = .next (answer .none { s with even := mask }) := by
  unfold exec execEvCfg
  exact whenIdle_idle _ hp

end Sys2Proof.Machine
end

