-- ==== Sys2Proof/Laws/PerInstr.lean ====
section
/-! SUPPORT. The family `TableRow`: the word the encoder writes for an operation agrees with its row of
spec/opcode_table.json (width, mask and match). -/

namespace Sys2Proof.Laws

/-- A row of spec/opcode_table.json: the width in bits, the match and the mask. -/
structure TableRow.Row where
  width : Nat
  matches_ : Nat
  mask : Nat

/-- The row of spec/opcode_table.json for each operation. -/
def TableRow.row : Instr → TableRow.Row
  | .group0A .. => ⟨64, 0x0000000000000000, 0x0000F80000000000⟩
  | .group0B .. => ⟨64, 0x0000080000000000, 0x0000F80000000000⟩
  | .group1A .. => ⟨64, 0x0000100000000000, 0x0000F80000000000⟩
  | .group1B .. => ⟨64, 0x0000180000000000, 0x0000F80000000000⟩
  | .group2A .. => ⟨64, 0x0000200000000000, 0x0000F80000000000⟩
  | .group2B .. => ⟨64, 0x0000280000000000, 0x0000F80000000000⟩
  | .group3A .. => ⟨64, 0x0000300000000000, 0x0000F80000000000⟩
  | .group3B .. => ⟨64, 0x0000380000000000, 0x0000F80000000000⟩
  | .group4A .. => ⟨64, 0x0000400000000000, 0x0000F80000000000⟩
  | .group4B .. => ⟨64, 0x0000480000000000, 0x0000F80000000000⟩
  | .group5A .. => ⟨64, 0x0000500000000000, 0x0000F80000000000⟩
  | .group5B .. => ⟨64, 0x0000580000000000, 0x0000F80000000000⟩
  | .group6A .. => ⟨64, 0x0000600000000000, 0x0000F80000000000⟩
  | .group6B .. => ⟨64, 0x0000680000000000, 0x0000F80000000000⟩
  | .group7A .. => ⟨64, 0x0000700000000000, 0x0000F80000000000⟩
  | .group7B .. => ⟨64, 0x0000780000000000, 0x0000F80000000000⟩
  | .group8A .. => ⟨64, 0x0000800000000000, 0x0000F80000000000⟩
  | .group8B .. => ⟨64, 0x0000880000000000, 0x0000F80000000000⟩
  | .group9A .. => ⟨64, 0x0000900000000000, 0x0000F80000000000⟩
  | .group9B .. => ⟨64, 0x0000980000000000, 0x0000F80000000000⟩
  | .group10A .. => ⟨64, 0x0000A00000000000, 0x0000F80000000000⟩
  | .group10B .. => ⟨64, 0x0000A80000000000, 0x0000F80000000000⟩
  | .group11A .. => ⟨64, 0x0000B00000000000, 0x0000F80000000000⟩
  | .group11B .. => ⟨64, 0x0000B80000000000, 0x0000F80000000000⟩
  | .group12A .. => ⟨64, 0x0000C00000000000, 0x0000F80000000000⟩
  | .group12B .. => ⟨64, 0x0000C80000000000, 0x0000F80000000000⟩
  | .group13A .. => ⟨64, 0x0000D00000000000, 0x0000F80000000000⟩
  | .group13B .. => ⟨64, 0x0000D80000000000, 0x0000F80000000000⟩
  | .group14A .. => ⟨64, 0x0000E00000000000, 0x0000F80000000000⟩
  | .group14B .. => ⟨64, 0x0000E80000000000, 0x0000F80000000000⟩
  | .group15A .. => ⟨64, 0x0000F00000000000, 0x0000F80000000000⟩
  | .group15B .. => ⟨64, 0x0000F80000000000, 0x0000F80000000000⟩
  | .reset => ⟨8, 0x00, 0xFF⟩
  | .qStatus => ⟨8, 0x01, 0xFF⟩
  | .qText .. => ⟨8, 0x02, 0xFF⟩
  | .qTime => ⟨8, 0x03, 0xFF⟩
  | .evCfg .. => ⟨8, 0x04, 0xFF⟩
  | .cDecrypt .. => ⟨8, 0x10, 0xFF⟩
  | .cDecryptX .. => ⟨8, 0x11, 0xFF⟩
  | .cLookup .. => ⟨8, 0x12, 0xFF⟩
  | .uClear => ⟨8, 0x20, 0xFF⟩
  | .uLoad .. => ⟨8, 0x21, 0xFF⟩
  | .uGlue => ⟨8, 0x22, 0xFF⟩
  | .uFlt .. => ⟨8, 0x23, 0xFF⟩
  | .uRestart => ⟨8, 0x24, 0xFF⟩
  | .uSetCur .. => ⟨8, 0x25, 0xFF⟩
  | .uRead .. => ⟨8, 0x26, 0xFF⟩
  | .uLabel => ⟨8, 0x27, 0xFF⟩
  | .tClass3A .. => ⟨8, 0x30, 0xFF⟩
  | .tClass8A .. => ⟨8, 0x31, 0xFF⟩

/-- A port word agrees with a row: it stands on the port of that width, and its bits under the mask are the match. -/
def TableRow.agrees (r : TableRow.Row) : PortWord → Prop
  | .group w => r.width = 64 ∧ w &&& BitVec.ofNat 64 r.mask = BitVec.ofNat 64 r.matches_
  | .command w => r.width = 8 ∧ w &&& BitVec.ofNat 48 r.mask = BitVec.ofNat 48 r.matches_

/-- The encoded operation agrees with its row of the table. -/
def TableRow.Statement (i : Instr) : Prop := TableRow.agrees (TableRow.row i) (encode i)

theorem TableRow.group_code (code : BitVec 5) (h : Head) (sub : BitVec 5) (c d : Block) :
    (h.pi ++ (code ++ BitVec.ofBool h.tp ++ h.pty ++ sub) ++ c ++ d : BitVec 64) &&& 0xF80000000000#64 =
      code.setWidth 64 <<< 43 := by
  apply BitVec.eq_of_getLsbD_eq
  intro i hi
  simp only [BitVec.getLsbD_and, BitVec.getLsbD_append]
  interval_cases i <;> simp

theorem TableRow.command_code (code : BitVec 8) (o : BitVec 40) :
    (o ++ code : BitVec 48) &&& 0xFF#48 = code.setWidth 48 := by
  apply BitVec.eq_of_getLsbD_eq
  intro i hi
  simp only [BitVec.getLsbD_and, BitVec.getLsbD_append]
  interval_cases i <;> simp

/-- A group word agrees with a 64-bit row whose match is its code in bits 47:43. -/
theorem TableRow.agrees_group {code : BitVec 5} {h : Head} {sub : BitVec 5} {c d : Block} {n : Nat}
    (hn : code.setWidth 64 <<< 43 = BitVec.ofNat 64 n) :
    TableRow.agrees ⟨64, n, 0x0000F80000000000⟩ (groupWord code h sub c d) :=
  ⟨rfl, (TableRow.group_code code h sub c d).trans hn⟩

/-- A command word agrees with an 8-bit row whose match is its code. -/
theorem TableRow.agrees_command {code : BitVec 8} {o : BitVec 40} {n : Nat}
    (hn : code.setWidth 48 = BitVec.ofNat 48 n) : TableRow.agrees ⟨8, n, 0xFF⟩ (commandWord code o) :=
  ⟨rfl, (TableRow.command_code code o).trans hn⟩

theorem TableRow.group0A (h : Head) (b : Basic) (afpair : Block) (ch0 ch1 : Byte) :
    TableRow.Statement (.group0A h b afpair ch0 ch1) := TableRow.agrees_group (by decide)
theorem TableRow.group0B (h : Head) (b : Basic) (ch0 ch1 : Byte) :
    TableRow.Statement (.group0B h b ch0 ch1) := TableRow.agrees_group (by decide)
theorem TableRow.group1A (h : Head) (la : Bool) (var : BitVec 3) (payload : BitVec 12) (pin : Block) :
    TableRow.Statement (.group1A h la var payload pin) := TableRow.agrees_group (by decide)
theorem TableRow.group1B (h : Head) (pin : Block) :
    TableRow.Statement (.group1B h pin) := TableRow.agrees_group (by decide)
theorem TableRow.group2A (h : Head) (tog : Bool) (seg : BitVec 4) (ch0 ch1 ch2 ch3 : Byte) :
    TableRow.Statement (.group2A h tog seg ch0 ch1 ch2 ch3) := TableRow.agrees_group (by decide)
theorem TableRow.group2B (h : Head) (tog : Bool) (seg : BitVec 4) (ch0 ch1 : Byte) :
    TableRow.Statement (.group2B h tog seg ch0 ch1) := TableRow.agrees_group (by decide)
theorem TableRow.group3A (h : Head) (cig : BitVec 5) (msg aid : Block) :
    TableRow.Statement (.group3A h cig msg aid) := TableRow.agrees_group (by decide)
theorem TableRow.group3B (h : Head) (sub : BitVec 5) (d : Block) :
    TableRow.Statement (.group3B h sub d) := TableRow.agrees_group (by decide)
theorem TableRow.group4A (h : Head) (mjd : BitVec 17) (hour : BitVec 5) (minute : BitVec 6) (tzSign : Bool) (tzMag : BitVec 5) :
    TableRow.Statement (.group4A h mjd hour minute tzSign tzMag) := TableRow.agrees_group (by decide)
theorem TableRow.group4B (h : Head) (sub : BitVec 5) (d : Block) :
    TableRow.Statement (.group4B h sub d) := TableRow.agrees_group (by decide)
theorem TableRow.group5A (h : Head) (sub : BitVec 5) (c d : Block) :
    TableRow.Statement (.group5A h sub c d) := TableRow.agrees_group (by decide)
theorem TableRow.group5B (h : Head) (sub : BitVec 5) (d : Block) :
    TableRow.Statement (.group5B h sub d) := TableRow.agrees_group (by decide)
theorem TableRow.group6A (h : Head) (sub : BitVec 5) (c d : Block) :
    TableRow.Statement (.group6A h sub c d) := TableRow.agrees_group (by decide)
theorem TableRow.group6B (h : Head) (sub : BitVec 5) (d : Block) :
    TableRow.Statement (.group6B h sub d) := TableRow.agrees_group (by decide)
theorem TableRow.group7A (h : Head) : TableRow.Statement (.group7A h) := TableRow.agrees_group (by decide)
theorem TableRow.group7B (h : Head) (sub : BitVec 5) (d : Block) :
    TableRow.Statement (.group7B h sub d) := TableRow.agrees_group (by decide)
theorem TableRow.group8A (h : Head) (sub : BitVec 5) (c d : Block) :
    TableRow.Statement (.group8A h sub c d) := TableRow.agrees_group (by decide)
theorem TableRow.group8B (h : Head) (sub : BitVec 5) (d : Block) :
    TableRow.Statement (.group8B h sub d) := TableRow.agrees_group (by decide)
theorem TableRow.group9A (h : Head) : TableRow.Statement (.group9A h) := TableRow.agrees_group (by decide)
theorem TableRow.group9B (h : Head) (sub : BitVec 5) (d : Block) :
    TableRow.Statement (.group9B h sub d) := TableRow.agrees_group (by decide)
theorem TableRow.group10A (h : Head) (tog : Bool) (seg : BitVec 1) (ch0 ch1 ch2 ch3 : Byte) :
    TableRow.Statement (.group10A h tog seg ch0 ch1 ch2 ch3) := TableRow.agrees_group (by decide)
theorem TableRow.group10B (h : Head) (sub : BitVec 5) (d : Block) :
    TableRow.Statement (.group10B h sub d) := TableRow.agrees_group (by decide)
theorem TableRow.group11A (h : Head) (sub : BitVec 5) (c d : Block) :
    TableRow.Statement (.group11A h sub c d) := TableRow.agrees_group (by decide)
theorem TableRow.group11B (h : Head) (sub : BitVec 5) (d : Block) :
    TableRow.Statement (.group11B h sub d) := TableRow.agrees_group (by decide)
theorem TableRow.group12A (h : Head) (sub : BitVec 5) (c d : Block) :
    TableRow.Statement (.group12A h sub c d) := TableRow.agrees_group (by decide)
theorem TableRow.group12B (h : Head) (sub : BitVec 5) (d : Block) :
    TableRow.Statement (.group12B h sub d) := TableRow.agrees_group (by decide)
theorem TableRow.group13A (h : Head) : TableRow.Statement (.group13A h) := TableRow.agrees_group (by decide)
theorem TableRow.group13B (h : Head) (sub : BitVec 5) (d : Block) :
    TableRow.Statement (.group13B h sub d) := TableRow.agrees_group (by decide)
theorem TableRow.group14A (h : Head) (tpon : Bool) (var : BitVec 4) (payload pion : Block) :
    TableRow.Statement (.group14A h tpon var payload pion) := TableRow.agrees_group (by decide)
theorem TableRow.group14B (h : Head) (tpon taon : Bool) (pion : Block) :
    TableRow.Statement (.group14B h tpon taon pion) := TableRow.agrees_group (by decide)
theorem TableRow.group15A (h : Head) : TableRow.Statement (.group15A h) := TableRow.agrees_group (by decide)
theorem TableRow.group15B (h : Head) (b : Basic) :
    TableRow.Statement (.group15B h b) := TableRow.agrees_group (by decide)
theorem TableRow.reset : TableRow.Statement .reset := TableRow.agrees_command (by decide)
theorem TableRow.qStatus : TableRow.Statement .qStatus := TableRow.agrees_command (by decide)
theorem TableRow.qText (buf : BitVec 2) : TableRow.Statement (.qText buf) := TableRow.agrees_command (by decide)
theorem TableRow.qTime : TableRow.Statement .qTime := TableRow.agrees_command (by decide)
theorem TableRow.evCfg (mask : BitVec 7) : TableRow.Statement (.evCfg mask) := TableRow.agrees_command (by decide)
theorem TableRow.cDecrypt (loc key : Block) :
    TableRow.Statement (.cDecrypt loc key) := TableRow.agrees_command (by decide)
theorem TableRow.cDecryptX (loc : Block) (xorValue : BitVec 8) (startBit rotateAmount : BitVec 4) :
    TableRow.Statement (.cDecryptX loc xorValue startBit rotateAmount) := TableRow.agrees_command (by decide)
theorem TableRow.cLookup (mode : Bool) (svc : BitVec 4) (idx : BitVec 5) :
    TableRow.Statement (.cLookup mode svc idx) := TableRow.agrees_command (by decide)
theorem TableRow.uClear : TableRow.Statement .uClear := TableRow.agrees_command (by decide)
theorem TableRow.uLoad (i : BitVec 2) (chunk : BitVec 28) :
    TableRow.Statement (.uLoad i chunk) := TableRow.agrees_command (by decide)
theorem TableRow.uGlue : TableRow.Statement .uGlue := TableRow.agrees_command (by decide)
theorem TableRow.uFlt (w : Block) : TableRow.Statement (.uFlt w) := TableRow.agrees_command (by decide)
theorem TableRow.uRestart : TableRow.Statement .uRestart := TableRow.agrees_command (by decide)
theorem TableRow.uSetCur (c : BitVec 8) : TableRow.Statement (.uSetCur c) := TableRow.agrees_command (by decide)
theorem TableRow.uRead (size : BitVec 5) : TableRow.Statement (.uRead size) := TableRow.agrees_command (by decide)
theorem TableRow.uLabel : TableRow.Statement .uLabel := TableRow.agrees_command (by decide)
theorem TableRow.tClass3A (y : Block) : TableRow.Statement (.tClass3A y) := TableRow.agrees_command (by decide)
theorem TableRow.tClass8A (x : BitVec 5) (y z : Block) :
    TableRow.Statement (.tClass8A x y z) := TableRow.agrees_command (by decide)

end Sys2Proof.Laws
end

