-- ==== Sys2Proof/Tests/Slice0.lean ====
section
/-! SUPPORT. The model's own tests: words written from the spec's encodings, ill-formed terms, and one step at a time on
small states. Expected values are those of 95_test_vectors.md (the vector is named) or worked by hand from the rule
named. -/

namespace Sys2Proof.Tests

open Sys2Proof.Machine

/-- The start state of 95_test_vectors.md: after power-on with every event kind enabled. -/
def start : State := { State.reset with even := 0x7F }

/-- The start state with a container and a cursor. -/
def unpacking (c0 c1 c2 c3 : Slice) (b : BitVec 5) (i : BitVec 3) : State :=
  { start with cont := ⟨c0, c1, c2, c3⟩, cur := ⟨b, i⟩ }

/-- A field of the state after an operation. -/
def after {α : Type} (i : Instr) (s : State) (f : State → α) : Option α := (nextState? (exec i s)).map f

/-- The head of the groups of station D318. -/
def head (tp : Bool) (pty : BitVec 5) : Head := ⟨0xD318, tp, pty⟩

/-! ### Well-formedness: an ill-formed term for each check -/

theorem test_illformed_text_selector : (Instr.qText 3).wellFormed = false := by decide
theorem test_illformed_cursor_fresh : (Instr.uSetCur 0x08).wellFormed = false := by decide
theorem test_illformed_cursor_slice : (Instr.uSetCur 0x05).wellFormed = false := by decide
theorem test_illformed_cursor_eof : (Instr.uSetCur 0x0E).wellFormed = false := by decide
theorem test_illformed_size_zero : (Instr.uRead 0).wellFormed = false := by decide
theorem test_illformed_size_large : (Instr.uRead 17).wellFormed = false := by decide
theorem test_wellformed_size : (Instr.uRead 16).wellFormed = true := by decide

/-! ### Decoding: one word for each operation, from 95_test_vectors.md section 2.1 and 30_encoding.md R128 -/

theorem test_decode_0A :
    decodeTableWord 64 0xD3180554E20A5241 = some (.group0A (head true 10) ⟨true, false, true, 0⟩ 0xE20A 0x52 0x41) := by decide
theorem test_decode_0B :
    decodeTableWord 64 0x123408AE12345859 = some (.group0B ⟨0x1234, false, 5⟩ ⟨false, true, true, 2⟩ 0x58 0x59) := by decide
theorem test_decode_1A :
    decodeTableWord 64 0xD318100083E15ABC = some (.group1A (head false 0) true 0 0x3E1 0x5ABC) := by decide
theorem test_decode_1B :
    decodeTableWord 64 0xD3181800D3180005 = some (.group1B (head false 0) 5) := by decide
theorem test_decode_2A :
    decodeTableWord 64 0xD318214148656C6D = some (.group2A (head false 10) false 1 0x48 0x65 0x6C 0x6D) := by decide
theorem test_decode_2B :
    decodeTableWord 64 0xD3182951D3187A7B = some (.group2B (head false 10) true 1 0x7A 0x7B) := by decide
theorem test_decode_3A :
    decodeTableWord 64 0xD31834100066CD46 = some (.group3A (head true 0) 16 0x66 0xCD46) := by decide
theorem test_decode_3B :
    decodeTableWord 64 0xD3183C1F11112222 = some (.group3B (head true 0) 31 0x2222) := by decide
theorem test_decode_4A :
    decodeTableWord 64 0xD3184021CBC2D963 = some (.group4A (head false 1) 58849 13 37 true 3) := by decide
theorem test_decode_4B :
    decodeTableWord 64 0xD3184C01D3180102 = some (.group4B (head true 0) 1 0x0102) := by decide
theorem test_decode_5A :
    decodeTableWord 64 0xD3185403CAFEBEEF = some (.group5A (head true 0) 3 0xCAFE 0xBEEF) := by decide
theorem test_decode_5B :
    decodeTableWord 64 0xD3185C03D318BEEF = some (.group5B (head true 0) 3 0xBEEF) := by decide
theorem test_decode_6A :
    decodeTableWord 64 0xD31864050A0B0C0D = some (.group6A (head true 0) 5 0x0A0B 0x0C0D) := by decide
theorem test_decode_6B :
    decodeTableWord 64 0xD3186C05D3180C0D = some (.group6B (head true 0) 5 0x0C0D) := by decide
theorem test_decode_7A :
    decodeTableWord 64 0xD3187400FFFFFFFF = some (.group7A (head true 0)) := by decide
theorem test_decode_7B :
    decodeTableWord 64 0xD3187C1FD3180001 = some (.group7B (head true 0) 31 1) := by decide
theorem test_decode_8A :
    decodeTableWord 64 0xD318840B61232B4C = some (.group8A (head true 0) 11 0x6123 0x2B4C) := by decide
theorem test_decode_8B :
    decodeTableWord 64 0xD3188C00D3180000 = some (.group8B (head true 0) 0 0) := by decide
theorem test_decode_9A :
    decodeTableWord 64 0xD3189000FFFFFFFF = some (.group9A (head false 0)) := by decide
theorem test_decode_9B :
    decodeTableWord 64 0xD3189C02D3181357 = some (.group9B (head true 0) 2 0x1357) := by decide
theorem test_decode_10A :
    decodeTableWord 64 0xD318A15177732020 = some (.group10A (head false 10) true 1 0x77 0x73 0x20 0x20) := by decide
theorem test_decode_10B :
    decodeTableWord 64 0xD318AC11D3182468 = some (.group10B (head true 0) 17 0x2468) := by decide
theorem test_decode_11A :
    decodeTableWord 64 0xD318B407AAAABBBB = some (.group11A (head true 0) 7 0xAAAA 0xBBBB) := by decide
theorem test_decode_11B :
    decodeTableWord 64 0xD318BC07D318BBBB = some (.group11B (head true 0) 7 0xBBBB) := by decide
theorem test_decode_12A :
    decodeTableWord 64 0xD318C407AAAABBBB = some (.group12A (head true 0) 7 0xAAAA 0xBBBB) := by decide
theorem test_decode_12B :
    decodeTableWord 64 0xD318CC07D318BBBB = some (.group12B (head true 0) 7 0xBBBB) := by decide
theorem test_decode_13A :
    decodeTableWord 64 0xD318D400FFFFFFFF = some (.group13A (head true 0)) := by decide
theorem test_decode_13B :
    decodeTableWord 64 0xD318DC00FFFF0001 = some (.group13B (head true 0) 0 1) := by decide
theorem test_decode_14A :
    decodeTableWord 64 0xD318E41D5801C201 = some (.group14A (head true 0) true 13 0x5801 0xC201) := by decide
theorem test_decode_14B :
    decodeTableWord 64 0xD318EC08D318C204 = some (.group14B (head true 0) false true 0xC204) := by decide
theorem test_decode_15A :
    decodeTableWord 64 0x1234F6A000000000 = some (.group15A ⟨0x1234, true, 21⟩) := by decide
theorem test_decode_15B :
    decodeTableWord 64 0x1234F8B21234FFFF = some (.group15B ⟨0x1234, false, 5⟩ ⟨true, false, false, 2⟩) := by decide
theorem test_decode_reset : decode (.command 0x00) = .ok (.reset) := by rfl
theorem test_decode_qstatus : decode (.command 0x01) = .ok (.qStatus) := by rfl
theorem test_decode_qtext : decode (.command 0x0202) = .ok (.qText 2) := by rfl
theorem test_decode_qtime : decode (.command 0x03) = .ok (.qTime) := by rfl
theorem test_decode_evcfg : decode (.command 0x6004) = .ok (.evCfg 0x60) := by rfl
theorem test_decode_decrypt : decode (.command 0x5A372B4C10) = .ok (.cDecrypt 0x2B4C 0x5A37) := by rfl
theorem test_decode_decryptx : decode (.command 0x07035A2B4C11) = .ok (.cDecryptX 0x2B4C 0x5A 3 7) := by rfl
theorem test_decode_lookup : decode (.command 0x1F070112) = .ok (.cLookup true 7 31) := by rfl
theorem test_decode_clear : decode (.command 0x20) = .ok (.uClear) := by rfl
theorem test_decode_load : decode (.command 0x02ACDA3A0321) = .ok (.uLoad 3 0x2ACDA3A) := by rfl
theorem test_decode_glue : decode (.command 0x22) = .ok (.uGlue) := by rfl
theorem test_decode_flt : decode (.command 0xFF5923) = .ok (.uFlt 0xFF59) := by rfl
theorem test_decode_restart : decode (.command 0x24) = .ok (.uRestart) := by rfl
theorem test_decode_setcur : decode (.command 0x9C25) = .ok (.uSetCur 0x9C) := by rfl
theorem test_decode_read : decode (.command 0x1026) = .ok (.uRead 16) := by rfl
theorem test_decode_label : decode (.command 0x27) = .ok (.uLabel) := by rfl
theorem test_decode_class3a : decode (.command 0x006630) = .ok (.tClass3A 0x0066) := by rfl
theorem test_decode_class8a : decode (.command 0x2B4C61230B31) = .ok (.tClass8A 0x0B 0x6123 0x2B4C) := by rfl
theorem test_decode_unknown : decode (.command 0x05) = .error (.unknownCommand 0x05) := by rfl
theorem test_decode_wide_mask : decode (.command 0x8004) = .error .operandTooWide := by rfl
theorem test_decode_wide_slice : decode (.command 0x0421) = .error .operandTooWide := by rfl
theorem test_decode_wide_chunk : decode (.command 0x100000000021) = .error .operandTooWide := by rfl

/-! ### Groups: one step each (95_test_vectors.md sections 2.1 to 2.5) -/

/-- V1. -/
theorem test_0A_ps :
    after (.group0A (head true 10) ⟨true, false, true, 0⟩ 0xE20A 0x52 0x41) start
      (fun t => (t.byteAt .ps 0, t.byteAt .ps 1, t.byteAt .ps 2, t.reg.di)) = some (0x52, 0x41, 0x20, 8) := by decide
/-- V1: the event. -/
theorem test_0A_event :
    after (.group0A (head true 10) ⟨true, false, true, 0⟩ 0xE20A 0x52 0x41) start (fun t => t.pending) =
      some (some ⟨⟨.af, 0, true, 0xE20A, 0⟩, .nothing⟩) := by decide
/-- V2. -/
theorem test_0B :
    after (.group0B ⟨0x1234, false, 5⟩ ⟨false, true, true, 2⟩ 0x58 0x59) start
      (fun t => (t.byteAt .ps 4, t.byteAt .ps 5, t.reg.di, t.reg.ms, t.pending)) =
      some (0x58, 0x59, 2, true, none) := by decide
/-- V33: the last two groups. -/
theorem test_15B_clears_one_bit :
    after (.group15B (head false 0) ⟨false, false, false, 0⟩) { start with reg := { Scalars.zero with di := 0xD } }
      (fun t => t.reg.di) = some 5 := by decide
/-- V3. -/
theorem test_1A_variant0 :
    after (.group1A (head false 0) true 0 0x3E1 0x5ABC) start
      (fun t => (t.reg.li, t.reg.opc, t.reg.ecc, t.reg.pin)) = some (true, 3, 0xE1, 0x5ABC) := by decide
/-- V34: variant 7 writes LI and PIN only. -/
theorem test_1A_variant7 :
    after (.group1A (head false 0) true 7 0x555 4) { start with reg := { Scalars.zero with lang := 9 } }
      (fun t => (t.reg.li, t.reg.lang, t.reg.tmcId, t.reg.pin)) = some (true, 9, 0, 4) := by decide
/-- V4. -/
theorem test_1B : after (.group1B (head false 0) 5) start (fun t => t.reg.pin) = some 5 := by decide
/-- V40. -/
theorem test_4A_time :
    after (.group4A (head false 1) 58849 13 37 true 3) start (fun t => (t.timeAvailable, t.time)) =
      some (true, ⟨37, 13, 1, 1, 2020, 3, -90⟩) := by decide
/-- V43: the MJD bits of block B are not in the zero test. -/
theorem test_4A_skipped :
    after (.group4A (head false 1) 0x18000 0 0 false 0) start (fun t => t.timeAvailable) = some false := by decide
/-- V15. -/
theorem test_7A : after (.group7A (head true 0)) start (fun t => t.reg.tp) = some true := by decide
/-- V19. -/
theorem test_9A : after (.group9A (head false 0)) start (fun t => t.reg.pi) = some 0xD318 := by decide
/-- V27. -/
theorem test_13A : after (.group13A (head true 0)) start (fun t => t.pending) = some none := by decide
/-- V31. -/
theorem test_15A : after (.group15A ⟨0x1234, true, 21⟩) start (fun t => t.reg.pty) = some 21 := by decide
/-- P2, step 3: at the event point RT and the tracker are still old (60_exceptions.md R362). -/
theorem test_2A_event_point :
    after (.group2A (head false 10) true 0 0x4E 0x65 0x77 0x20) { start with rt := [(0, 0x48)] }
      (fun t => (t.byteAt .rt 0, t.rtToggle, t.pending.map (fun p => p.event))) =
      some (0x48, false, some ⟨.rt, 0, true, 0, 0⟩) := by decide
/-- V62: the clear and the write with the event disabled. -/
theorem test_2A_disabled :
    after (.group2A (head false 10) true 15 0x65 0x6E 0x64 0x0D) { start with even := 0x5F, rt := [(0, 0x48)] }
      (fun t => (t.byteAt .rt 0, t.byteAt .rt 60, t.byteAt .rt 63, t.rtToggle, t.pending)) =
      some (0x20, 0x65, 0x0D, true, none) := by decide
/-- V6. -/
theorem test_2B :
    after (.group2B (head false 10) false 1 0x7A 0x7A) start (fun t => (t.rt, t.pending)) =
      some ([(2, 0x7A), (3, 0x7A)], none) := by decide
/-- P2, step 6 acknowledged: the clear of all 64 bytes and the write. -/
theorem test_2B_acknowledged :
    (nextState? (acknowledge
      { start with rt := [(0, 0x4E), (63, 0x0D)], rtToggle := true,
                   pending := some ⟨⟨.rt, 0, false, 0, 0⟩, .radiotext2 false 1 0x7A 0x7A⟩ })).map
      (fun t => (t.rt, t.rtToggle, t.pending)) = some ([(2, 0x7A), (3, 0x7A)], false, none) := by decide
/-- V60, line 3. -/
theorem test_10A_flip :
    after (.group10A (head false 10) true 1 0x77 0x73 0x20 0x20) { start with ptyn := [(0, 0x46), (4, 0x62)] }
      (fun t => (t.ptyn, t.ptynToggle, t.pending)) = some ([(4, 0x77), (5, 0x73)], true, none) := by decide
/-- V60, line 4: no flip, the other segment kept. -/
theorem test_10A_no_flip :
    after (.group10A (head false 10) true 0 0x4E 0x65 0x77 0x73) { start with ptyn := [(4, 0x77)], ptynToggle := true }
      (fun t => (t.byteAt .ptyn 0, t.byteAt .ptyn 4)) = some (0x4E, 0x77) := by decide
/-- V70 with the default parameters of 00_scope.md R8: slot selection. -/
def defaultAids : AidParams := ⟨0x6552, 0x4BD7, 0xC563, 0xCD46, 0xCD47, 0x0D45⟩
theorem test_3A_slots :
    ([(0xCD46, 16), (0x4BD7, 22), (0, 16), (0, 24), (0xABCD, 19), (0x6552, 3), (0xC563, 5), (0x0D45, 7)] :
      List (Block × BitVec 5)).map (fun c => slotOf defaultAids c.1 c.2) =
      [some .tmc, some .rtp, some .tmc, none, none, some .ert, some .irds, some .tmc] := by decide
/-- 3A of the AID parameter itself writes its slot, whatever the parameter is (42_oda_eon.md R210, R212). -/
theorem test_3A_ert :
    after (.group3A (head true 0) 3 0x2222 Config.aidErt) start (fun t => t.slot.ert) =
      some ⟨3, 0x2222, Config.aidErt⟩ := by
  have hs : slotOf Config.aids Config.aidErt 3 = some .ert := by simp [slotOf, Config.aids]
  have hu : ∀ s : State, (slotUpdate 3 0x2222 Config.aidErt s).slot.ert = ⟨3, 0x2222, Config.aidErt⟩ := by
    intro s
    rcases slotUpdate_cases 3 0x2222 Config.aidErt s with ⟨k, hk, h⟩ | ⟨hk, _⟩
    · rw [hs] at hk
      cases hk
      rw [h]
      rfl
    · rw [hs] at hk
      cases hk
  simp only [after, exec_group3A_idle (s := start) _ _ _ _ rfl, nextState?, Option.map_some]
  rcases emit_cases (announcementKind Config.kind3A) (BitVec.setWidth 8 (3 : BitVec 5)) true 0x2222 Config.aidErt .nothing
    (slotUpdate 3 0x2222 Config.aidErt (commonUpdate (head true 0) start)) with ⟨_, h⟩ | ⟨_, h⟩
  · rw [h]
    exact congrArg some (hu _)
  · rw [h]
    exact congrArg some (hu _)
theorem test_3B_event :
    after (.group3B (head true 0) 31 0x2222) start (fun t => t.pending) =
      some (some ⟨⟨.oda, 31, false, 0, 0x2222⟩, .nothing⟩) := by decide
theorem test_4B_event :
    after (.group4B (head true 0) 1 0x0102) start (fun t => t.pending) =
      some (some ⟨⟨.oda, 1, false, 0, 0x0102⟩, .nothing⟩) := by decide
theorem test_5A_event :
    after (.group5A (head true 0) 3 0xCAFE 0xBEEF) start (fun t => t.pending) =
      some (some ⟨⟨.tdc, 3, true, 0xCAFE, 0xBEEF⟩, .nothing⟩) := by decide
theorem test_5B_event :
    after (.group5B (head true 0) 3 0xBEEF) start (fun t => t.pending) =
      some (some ⟨⟨.tdc, 3, false, 0, 0xBEEF⟩, .nothing⟩) := by decide
theorem test_6A_event :
    after (.group6A (head true 0) 5 0x0A0B 0x0C0D) start (fun t => t.pending) =
      some (some ⟨⟨.oda, 5, true, 0x0A0B, 0x0C0D⟩, .nothing⟩) := by decide
theorem test_6B_event :
    after (.group6B (head true 0) 5 0x0C0D) start (fun t => t.pending) =
      some (some ⟨⟨.oda, 5, false, 0, 0x0C0D⟩, .nothing⟩) := by decide
theorem test_7B_event :
    after (.group7B (head true 0) 31 1) start (fun t => t.pending) =
      some (some ⟨⟨.oda, 31, false, 0, 1⟩, .nothing⟩) := by decide
theorem test_8A_event :
    after (.group8A (head true 0) 11 0x6123 0x2B4C) start (fun t => t.pending) =
      some (some ⟨⟨.tmc, 11, true, 0x6123, 0x2B4C⟩, .nothing⟩) := by decide
theorem test_8B_event :
    after (.group8B (head true 0) 0 0) start (fun t => t.pending) =
      some (some ⟨⟨.oda, 0, false, 0, 0⟩, .nothing⟩) := by decide
theorem test_9B_event :
    after (.group9B (head true 0) 2 0x1357) start (fun t => t.pending) =
      some (some ⟨⟨.oda, 2, false, 0, 0x1357⟩, .nothing⟩) := by decide
theorem test_10B_event :
    after (.group10B (head true 0) 17 0x2468) start (fun t => t.pending) =
      some (some ⟨⟨.oda, 17, false, 0, 0x2468⟩, .nothing⟩) := by decide
theorem test_11A_event :
    after (.group11A (head true 0) 7 0xAAAA 0xBBBB) start (fun t => t.pending) =
      some (some ⟨⟨.oda, 7, true, 0xAAAA, 0xBBBB⟩, .nothing⟩) := by decide
theorem test_11B_event :
    after (.group11B (head true 0) 7 0xBBBB) start (fun t => t.pending) =
      some (some ⟨⟨.oda, 7, false, 0, 0xBBBB⟩, .nothing⟩) := by decide
theorem test_12A_event :
    after (.group12A (head true 0) 7 0xAAAA 0xBBBB) start (fun t => t.pending) =
      some (some ⟨⟨.oda, 7, true, 0xAAAA, 0xBBBB⟩, .nothing⟩) := by decide
theorem test_12B_event :
    after (.group12B (head true 0) 7 0xBBBB) start (fun t => t.pending) =
      some (some ⟨⟨.oda, 7, false, 0, 0xBBBB⟩, .nothing⟩) := by decide
theorem test_13B_event :
    after (.group13B (head true 0) 0 1) start (fun t => t.pending) =
      some (some ⟨⟨.oda, 0, false, 0, 1⟩, .nothing⟩) := by decide
/-- V80, first line. -/
theorem test_14A_ps :
    after (.group14A (head true 0) true 0 0x4F54 0xC201) start
      (fun t => (t.eon.ps, t.eon.tp, t.eon.pi, t.eon.ta, t.pending)) =
      some ([(0, 0x4F), (1, 0x54)], true, 0xC201, false, none) := by decide
/-- V80: mapped AM frequency. -/
theorem test_14A_event :
    after (.group14A (head true 0) true 9 0x1E10 0xC201) start (fun t => (t.eon.pi, t.pending)) =
      some (0xC201, some ⟨⟨.eon, 3, true, 0x1E10, 0xC201⟩, .nothing⟩) := by decide
/-- V80, last line: TA from `B[3]` = 0 although it was 1. -/
theorem test_14B :
    after (.group14B (head true 0) true false 0xC205) { start with eon := { EonRecord.zero with ta := true } }
      (fun t => (t.eon.pi, t.eon.tp, t.eon.ta)) = some (0xC205, true, false) := by decide

/-! ### Commands: one step each (95_test_vectors.md sections 2.6 to 2.9) -/

/-- V142: RESET leaves EVEN, the container and the cursor. -/
theorem test_reset :
    after .reset { unpacking 0x01234567 0 0 0 27 1 with even := 1, rt := [(5, 0x41)], rtToggle := true }
      (fun t => (t.rt, t.rtToggle, t.even, t.cont.c0, t.cur)) = some ([], false, 1, 0x01234567, ⟨27, 1⟩) := by decide
/-- V144: RESET at an event point is refused. -/
theorem test_reset_at_event_point :
    refusal? (exec .reset { start with pending := some ⟨⟨.af, 0, true, 0, 0⟩, .nothing⟩ }) = some .eventPending := by
  decide
/-- P4, step 9: eight spaces, length 8. -/
theorem test_qstatus :
    after .qStatus start (fun t => match t.result with
      | .status n => (n.ps.len, n.rt.len, n.eon.bytes)
      | _ => (0, 0, [])) = some (8, 64, [0, 0, 0, 0, 0, 0, 0, 0]) := by decide
/-- 46_host_ops.md R336, the example: `RT = "end" 0x0D` and 60 spaces. -/
theorem test_qtext :
    after (.qText 2) { start with rt := [(0, 0x65), (1, 0x6E), (2, 0x64), (3, 0x0D)] } (fun t => match t.result with
      | .text x => (x.len, x.bytes.take 4)
      | _ => (0, [])) = some (3, [0x65, 0x6E, 0x64, 0]) := by decide
/-- V140 with tables chosen here: truncation, control bytes, remaps, the high table. -/
theorem test_filter :
    filterText ⟨0xA4, 0xA5, 0xA6, 0xA7, fun _ => 0xE1⟩ [0x41, 0x24, 0x0A, 0x07, 0x7F, 0x80, 0x0D, 0x42] =
      ⟨[0x41, 0xA4, 0x0A, 0x3F, 0x3F, 0xE1, 0, 0], 6⟩ := by decide
/-- V141: no fields while the time is not available. -/
theorem test_qtime : after .qTime start (fun t => t.result) = some (.time none) := by decide
/-- 46_host_ops.md R340. -/
theorem test_evcfg : after (.evCfg 0x60) start (fun t => t.even) = some 0x60 := by decide
/-- V125. -/
theorem test_decrypt : after (.cDecrypt 0x2B4C 0x5A37) start (fun t => t.result) = some (.decrypted 0xCE14) := by decide
/-- V126: the high bits of the mask fall off. -/
theorem test_decryptx :
    after (.cDecryptX 0x1234 0xA5 12 1) start (fun t => t.result) = some (.decrypted 0x8468) := by decide
/-- V135: a service key above 7 has no row. -/
theorem test_lookup_no_row : after (.cLookup true 8 0) start (fun t => t.result) = some (.key false 0) := by decide
/-- V135: in mode 0 the service key is ignored. -/
theorem test_lookup_flat :
    after (.cLookup false 8 5) start (fun t => t.result) = some (.key true (Config.keytabFlat 5)) := by rfl
/-- 44_bit_unpacker.md R274. -/
theorem test_clear :
    after .uClear (unpacking 1 2 3 4 7 2) (fun t => (t.cont, t.cur)) = some (⟨0, 0, 0, 0⟩, ⟨0, 0⟩) := by decide
/-- V111, the third load. -/
theorem test_load :
    after (.uLoad 2 0x71AD000) (unpacking 1 2 3 4 7 2) (fun t => (t.cont, t.cur)) =
      some (⟨1, 2, 0x071AD000, 4⟩, ⟨7, 2⟩) := by decide
/-- V104: dirty top nibbles. -/
theorem test_glue :
    after .uGlue (unpacking 0xF2ACDA3A 0xFBEEFE5C 0xF71AD03A 0xF2468890 0 0) (fun t => t.cont) =
      some ⟨0x2ACDA3AB, 0xEEFE5C71, 0xAD03A246, 0x88900000⟩ := by decide
/-- V120: the shift and the fields, for a word that holds the magic. -/
theorem test_flt :
    after (.uFlt (Config.fltMagic ++ 0xD#4 ++ 0x19#6)) (unpacking 0x2B4C2382 0 0 0 0 0) (fun t => (t.result, t.cont)) =
      some (.flt true 0xD 0x19 0x2B4C, ⟨0x23820000, 0, 0, 0⟩) := by
  have h1 : matchesFlt Config.fltMagic (Config.fltMagic ++ 0xD#4 ++ 0x19#6) = true := by
    generalize Config.fltMagic = m
    revert m; decide
  have h2 : fltCountry (Config.fltMagic ++ 0xD#4 ++ 0x19#6) = 0xD ∧
      fltTable (Config.fltMagic ++ 0xD#4 ++ 0x19#6) = 0x19 := by
    generalize Config.fltMagic = m
    revert m; decide
  simp only [after, exec, execUFlt, nextState?, h1, h2.1, h2.2, if_true, Option.map_some]
  rfl
/-- 44_bit_unpacker.md R281, the example. -/
theorem test_restart : after .uRestart (unpacking 1 2 3 4 0 6) (fun t => t.cur) = some ⟨0, 0⟩ := by decide
/-- V103. -/
theorem test_setcur : after (.uSetCur 0x9C) start (fun t => t.cur) = some ⟨19, 4⟩ := by decide
/-- V103: an illegal cursor word. -/
theorem test_setcur_refused : refusal? (exec (.uSetCur 0x05) start) = some .badCursorWord := by decide
/-- V100, read 5: across slices 1 and 2. -/
theorem test_read_straddles :
    after (.uRead 8) (unpacking 0xA5C3F00F 0x12345678 0x9ABCDEF0 0x0F1E2D3C 3 1) (fun t => (t.result, t.cur)) =
      some (.bits 0xF100, ⟨27, 2⟩) := by decide
/-- V102: run-off, real bits then zeros. -/
theorem test_read_runs_off :
    after (.uRead 16) (unpacking 0 0 0 0xABCD 7 4) (fun t => (t.result, t.cur)) = some (.bits 0xCD00, ⟨0, 6⟩) := by decide
/-- P3, label 3: type 10 across slices 1 and 2. -/
theorem test_label :
    after .uLabel (unpacking 0x2ACDA3AB 0xEEFE5C71 0xAD03A246 0x88900000 7 1) (fun t => (t.result, t.cur)) =
      some (.label true 10 0xBEEF, ⟨19, 2⟩) := by decide
/-- V112: exact fit, the label complete and `ok` false. -/
theorem test_label_exact_fit :
    after .uLabel (unpacking 0 0 0 0x000A1234 19 4) (fun t => (t.result, t.cur)) =
      some (.label false 10 0x1234, ⟨0, 6⟩) := by decide
/-- V91. -/
theorem test_class3A :
    after (.tClass3A 0x4A5B) start (fun t => t.result) =
      some (.class3A ⟨0x4A5B, 1, .sysService ⟨0, 41, 1, 2, 3⟩⟩) := by decide
/-- V94. -/
theorem test_class8A_single :
    after (.tClass8A 0x0B 0x6123 0x2B4C) start (fun t => t.result) =
      some (.class8A ⟨0x0B, 0x6123, 0x2B4C, .userSingle ⟨true, 4, 0x123, 0x2B4C⟩⟩) := by decide
/-- V96 with the default encrypted-group test of 00_scope.md R8. -/
theorem test_class8A_next :
    classify8A (fun x _ _ => x == 0) 2 0x72AC 0xDA3A =
      ⟨2, 0x72AC, 0xDA3A, .multiNext true 3 0x2ACDA3A⟩ := by decide

/-! ### The step -/

/-- V144: an acknowledgement with nothing pending is refused. -/
theorem test_ack_refused : refusal? (step { start with inbox := [.ack] }) = some .ackWithoutEvent := by decide
/-- The opcode-table word of GROUP.1B runs as the next step. -/
theorem test_fetch :
    (nextState? (step (State.reset.withFetchWord 64 0xD3181800D3180005))).map (fun t => (t.reg.pin, t.inbox)) =
      some (5, []) := by decide
/-- Date table of 95_test_vectors.md section 2.3. -/
theorem test_dates :
    ([15079, 32768, 58849, 88128, 131071].map fun m => (yearOfMjd m, monthOfMjd m, dayOfMjd m, weekdayOfMjd m)) =
      [(1900, 3, 1, 4), (1948, 8, 5, 4), (2020, 1, 1, 3), (2100, 2, 29, 1), (2217, 9, 25, 6)] := by decide

/-! ### Witnesses: for each statement with hypotheses, states and operands that meet them, at the boundaries of each
clause -/

/-- An operation has a next state. -/
def completes (i : Instr) (s : State) : Bool := (nextState? (exec i s)).isSome

/-- An idle state with the event of a flipped 2A waiting, the kind enabled. -/
def waiting : State :=
  { start with pending := some ⟨⟨.rt, 0, true, 0, 0⟩, .radiotext4 true 15 0x41 0x42 0x43 0x44⟩ }

/-- A state whose next request is the operation of an opcode-table word. -/
def presented (nbits w : Nat) (s : State) : State := s.withFetchWord nbits w

/-- Idle states: every statement about a group, RESET or EVCFG on an idle block. -/
theorem witness_idle : start.pending = none ∧ State.reset.pending = none := by decide
theorem witness_GroupFormatsNameTheirBits :
    ((0 : BitVec 64).extractLsb' 43 5).toNat = 0 ∧ ((0xF80000000000 : BitVec 64).extractLsb' 43 5).toNat = 31 := by
  decide
theorem witness_CommandWordAcceptedExactlyWhenItIsAnEncoding :
    decode (.command 0x1026) = .ok (.uRead 16) ∧ encode (.uRead 16) = .command 0x1026 := by decide
theorem witness_unknown_codes :
    [0x05, 0x0F, 0x13, 0x1F, 0x28, 0x2F, 0x32, 0xFF].all
      (fun c => decide (decode (.command (BitVec.ofNat 48 c)) = .error (.unknownCommand (BitVec.ofNat 8 c)))) := by
  decide
theorem witness_known_codes :
    decode (.command 0x00) = .ok .reset ∧ decode (.command 0x100) = .error .operandTooWide ∧
      decode (.command 0xFFFFFFFF1F31) = .ok (.tClass8A 31 0xFFFF 0xFFFF) ∧
      decode (.command 0xFFFFFFFF2031) = .error .operandTooWide := by decide
theorem witness_StepRunsTheDecodedOperation :
    (presented 8 0x24 start).inbox = [.op (.command 0x24)] ∧ decode (.command 0x24) = .ok .uRestart ∧
      decode (.command 0x05) = .error (.unknownCommand 0x05) ∧ decodeTableWord 8 0x24 = some .uRestart ∧
      start.inbox = [] := by decide
theorem witness_AcknowledgementRunsTheRest :
    ({ waiting with inbox := [.ack] } : State).inbox = .ack :: [] ∧ start.pending = none ∧
      waiting.pending = some ⟨⟨.rt, 0, true, 0, 0⟩, .radiotext4 true 15 0x41 0x42 0x43 0x44⟩ := by decide
theorem witness_acknowledged :
    (nextState? (step { waiting with inbox := [.ack] })).isSome ∧
      (nextState? (step { start with
        inbox := [.ack], pending := some ⟨⟨.rt, 0, false, 0, 0⟩, .radiotext2 false 0 1 2⟩ })).isSome ∧
      (nextState? (step { start with inbox := [.ack], pending := some ⟨⟨.af, 0, true, 1, 0⟩, .nothing⟩ })).isSome := by
  decide
theorem witness_Group4AStoresTheTime :
    ¬((15079#17).extractLsb' 0 15 = 0 ∧ (0 : BitVec 5) = 0 ∧ (0 : BitVec 6) = 0 ∧ false = false ∧ (0 : BitVec 5) = 0) ∧
      15079 ≤ (15079#17).toNat ∧ 15079 ≤ (131071#17).toNat := by decide
theorem witness_Group4ABelow15079LeavesTheDateOpen :
    ¬((15078#17).extractLsb' 0 15 = 0 ∧ (0 : BitVec 5) = 0 ∧ (0 : BitVec 6) = 0 ∧ false = false ∧ (0 : BitVec 5) = 0) ∧
      (15078#17).toNat < 15079 ∧
      ¬((0#17).extractLsb' 0 15 = 0 ∧ (0 : BitVec 5) = 0 ∧ (0 : BitVec 6) = 0 ∧ false = false ∧ (1 : BitVec 5) = 0) ∧
      (0#17).toNat < 15079 := by decide
theorem witness_DateIsGregorianUntil2100 :
    (15079 ≤ 15079 ∧ 15079 < 88127) ∧ 15079 ≤ 88126 ∧ 88126 < 88127 ∧
      (yearOfMjd 88127, monthOfMjd 88127, dayOfMjd 88127) = dayAfter 2100 2 27 := by decide
theorem witness_DateRangesHold : (15079 ≤ 15079 ∧ 15079 ≤ 131071) ∧ 15079 ≤ 131071 ∧ 131071 ≤ 131071 := by decide
theorem witness_Group2AReassemblesRadiotext :
    false = start.rtToggle ∧ true ≠ start.rtToggle ∧ start.even.getLsbD 5 = true ∧
      State.reset.even.getLsbD 5 = false ∧ true ≠ State.reset.rtToggle := by decide
theorem witness_Group2BReassemblesRadiotext :
    true = ({ start with rtToggle := true } : State).rtToggle ∧ false ≠ ({ start with rtToggle := true } : State).rtToggle ∧
      ({ start with rtToggle := true } : State).even.getLsbD 5 = true ∧
      ({ State.reset with rtToggle := true } : State).even.getLsbD 5 = false := by decide
theorem witness_Group14AWritesTheOtherNetwork :
    (0 : BitVec 4).toNat ≤ 3 ∧ (3 : BitVec 4).toNat ≤ 3 ∧ 3 < (4 : BitVec 4).toNat ∧ 3 < (15 : BitVec 4).toNat := by decide
theorem witness_DisabledEventChangesNoWrite :
    isGroup (.group2A (head false 0) true 0 1 2 3 4) = true ∧ start.pending = none := by decide
theorem witness_EventPointAdmitsQueriesAndUnits :
    waiting.pending.isSome ∧ needsIdle .reset = true ∧ needsIdle (.group7A (head true 0)) = true ∧
      needsIdle .uLabel = false ∧ Instr.uLabel.wellFormed = true ∧ needsIdle (.uRead 16) = false ∧
      (Instr.uRead 16).wellFormed = true ∧ legalCursor waiting.cur = true := by decide
theorem witness_EventsComeFromGroupsAlone :
    (nextState? (step (presented 64 0xD318840B61232B4C start))).map (fun t => t.pending.isSome) = some true ∧
      (nextState? (step { waiting with inbox := [.ack] })).map (fun t => t.pending.isSome) = some false := by decide
theorem witness_UnpackerAndDispatcherAreIndependent :
    isUnpacker (.group1B (head true 0) 5) = false ∧ isUnpacker .qStatus = false ∧ isUnpacker .uLabel = true ∧
      waiting.cont = start.cont ∧ waiting.cur = start.cur := by decide
theorem witness_RegistersHaveOnlyTheirWriters :
    isGroup (.group0A (head true 0) ⟨true, true, true, 3⟩ 0 1 2) = true ∧
      completes (.group0A (head true 0) ⟨true, true, true, 3⟩ 0 1 2) start = true ∧
      Reg.rt ∉ writtenBy (.group0A (head true 0) ⟨true, true, true, 3⟩ 0 1 2) ∧ Reg.even ∉ writtenBy .reset := by decide
theorem witness_NameBytesChangeOnlyBySegmentWriteOrReset :
    (nextState? (step (presented 64 0xD31805F7E20A5241 start))).map (fun t => (t.byteAt .ps 6, t.byteAt .ps 7)) =
        some (0x52, 0x41) ∧
      (nextState? (step (presented 64 0xD318E4134F54C201 start))).map (fun t => (t.byteAt .eonPs 6, t.byteAt .eonPs 7)) =
        some (0x4F, 0x54) ∧
      (nextState? (step (presented 8 0x00 { start with ps := [(0, 0x41)] }))).map (fun t => t.byteAt .ps 0) =
        some 0x20 := by decide
theorem witness_TimeStaysAvailableUntilReset :
    (nextState? (step (presented 8 0x00 { start with timeAvailable := true }))).map (fun t => t.timeAvailable) =
        some false ∧
      (nextState? (step (presented 64 0xD3184021CBC2D963 start))).map (fun t => (t.timeAvailable, t.time.hour)) =
        some (true, 13) := by decide
theorem witness_EonPinHasNoWriter :
    (nextState? (step (presented 64 0xD318E41E1234C201 start))).map (fun t => t.eon.pin) = some 0 ∧
      start.eon.pin = 0 := by decide
theorem witness_inv_start : Inv start := by
  constructor
  · decide
  · decide
  · decide
  · decide
  · decide
  · intro p h
    cases h
  · exact ⟨.inl rfl, .inl rfl, .inl rfl, .inl rfl⟩
  · intro h
    cases h
theorem witness_InvKeptByEveryStep :
    Inv (presented 64 0xD318840B61232B4C start) ∧
      (nextState? (step (presented 64 0xD318840B61232B4C start))).isSome := by
  refine ⟨?_, by decide⟩
  obtain ⟨h1, h2, h3, h4, h5, h6, h7, h8⟩ := witness_inv_start
  exact ⟨h1, h2, h3, h4, h5, h6, h7, h8⟩
theorem witness_RepeatedOverwritingGroupLeavesTheSameState :
    onlyOverwrites (.group0A (head true 0) ⟨true, true, true, 3⟩ 0 1 2) = true ∧
      completes (.group0A (head true 0) ⟨true, true, true, 3⟩ 0 1 2) start = true ∧
      onlyOverwrites (.group4A (head true 0) 15079 0 0 false 0) = true ∧
      completes (.group4A (head true 0) 15079 0 0 false 0) start = true := by decide
theorem witness_ReadIsTheStream :
    (0 : BitVec 5).toNat = 0 ∧ 16 < (17 : BitVec 5).toNat ∧ 1 ≤ (1 : BitVec 5).toNat ∧ (16 : BitVec 5).toNat ≤ 16 ∧
      legalCursor ⟨0, 0⟩ = true ∧ legalCursor ⟨31, 1⟩ = true ∧ legalCursor ⟨0, 4⟩ = true ∧ legalCursor ⟨0, 6⟩ = true := by
  decide
theorem witness_LabelReadsTheStream :
    legalCursor start.cur = true ∧ legalCursor (unpacking 1 2 3 4 0 4).cur = true ∧
      (unpacking 1 2 3 4 31 6).cur.sliceIndex = 6 ∧ completes .uLabel (unpacking 1 2 3 4 31 6) = true := by decide
theorem witness_ReadIsTheStream_at_eof :
    (unpacking 1 2 3 4 31 6).cur.sliceIndex = 6 ∧ completes (.uRead 16) (unpacking 1 2 3 4 31 6) = true := by decide
theorem witness_SevenZeroBitsEndTheStream :
    legalCursor start.cur = true ∧ streamNumber start.cont (position start.cur) 7 = 0 ∧
      streamNumber (unpacking 0xFFFFFFFF 0 0 0 31 2).cont (position (unpacking 0xFFFFFFFF 0 0 0 31 2).cur) 7 = 0 := by
  decide
theorem witness_EofIsSticky :
    (unpacking 1 2 3 4 0 6).cur.sliceIndex = 6 ∧ (unpacking 1 2 3 4 31 6).cur.sliceIndex = 6 := by decide
theorem witness_IllegalCursorIsRefused :
    (unpacking 1 2 3 4 1 0).cur.sliceIndex = 0 ∧ (unpacking 1 2 3 4 1 0).cur.bitIndex ≠ 0 ∧
      (unpacking 1 2 3 4 0 5).cur.sliceIndex = 5 ∧ (unpacking 1 2 3 4 31 7).cur.sliceIndex = 7 := by decide
theorem witness_CursorNeverMovesBack :
    movesCursorBack (.uRead 16) = false ∧ legalCursor start.cur = true ∧ completes (.uRead 16) start = true ∧
      movesCursorBack .uLabel = false ∧ completes .uLabel (unpacking 1 2 3 4 0 4) = true := by decide
theorem witness_SetCursorTakesLegalWords :
    refusal? (exec (.uSetCur 0x00) start) = none ∧ refusal? (exec (.uSetCur 0x01) start) = none ∧
      refusal? (exec (.uSetCur 0xFC) start) = none ∧ refusal? (exec (.uSetCur 0x06) start) = none ∧
      [0x08, 0x05, 0x07, 0x0E].all (fun c => decide (refusal? (exec (.uSetCur (BitVec.ofNat 8 c)) start) =
        some .badCursorWord)) := by decide
theorem witness_FltShiftsTheStream :
    (Config.fltMagic ++ 0x3FF#10).extractLsb' 10 6 = Config.fltMagic ∧
      (~~~(Config.fltMagic ++ 0#10)).extractLsb' 10 6 ≠ Config.fltMagic := by
  generalize Config.fltMagic = m
  revert m
  decide
theorem witness_DecryptIsXorThenRotate :
    (0x0000 : Block).extractLsb' 8 8 = 0 ∧ (0x0000 : Block).extractLsb' 0 4 = 0 ∧ (0x00F0 : Block).extractLsb' 8 8 = 0 ∧
      (0x00F0 : Block).extractLsb' 0 4 = 0 := by decide
theorem witness_KeyInversionCondition :
    (∀ x : Block, cipher (cipher x 0) 0 = x) ∧ ((0 : Block).extractLsb' 0 4).toNat = 0 := by
  refine ⟨fun x => ?_, by decide⟩
  simp [cipher, decryptX, keyXorValue, keyStartBit, keyRotateAmount, cipherMask, rotl16]
theorem witness_KeyLookup : (7 : BitVec 4).toNat ≤ 7 ∧ 7 < (8 : BitVec 4).toNat ∧ 7 < (15 : BitVec 4).toNat := by decide
theorem witness_TextQueryFiltersTheBuffer :
    completes (.qText 0) start = true ∧ completes (.qText 1) start = true ∧ completes (.qText 2) start = true ∧
      refusal? (exec (.qText 3) start) = some .badTextSelector := by decide
theorem witness_TimeQueryAndEventMask :
    start.timeAvailable = false ∧ ({ start with timeAvailable := true } : State).timeAvailable = true ∧
      start.pending = none ∧ waiting.pending ≠ none := by decide
theorem witness_AnnouncementClassifier :
    (classify3A 0x0066).variant = 0 ∧ (classify3A 0x7FFF).variant = 1 ∧ (classify3A 0x8000).variant = 2 ∧
      (classify3A 0xFFFF).variant = 3 := by decide
/-- A request first in the list, a command with an answer and an acknowledgement that is refused: one step each. -/
theorem witness_StepIsTheBlocksTransition :
    (presented 8 0x03 start).inbox = .op (.command 0x03) :: [] ∧
      (nextState? (step (presented 8 0x03 start))).isSome ∧
      refusal? (step { start with inbox := [.ack] }) = some .ackWithoutEvent := by decide
/-- The block's transition alone: the answer is an output, the request an argument. -/
theorem test_transition :
    (match transition (.op (.command 0x03)) 0 State.reset.toBlockState with
      | .next (b, a) => decide (b = State.reset.toBlockState ∧ a = .time none)
      | .fault _ => false
      | .refused _ => false) = true := by decide
theorem witness_OwnFieldsOfTheModel :
    completes (.group4A (head true 0) 15078 0 0 false 0) start = true ∧
      completes (.group4A (head true 0) 15079 0 0 false 0) start = true ∧
      completes (.group4A (head true 0) 0x18000 0 0 false 0) start = true ∧ completes .reset start = true ∧
      completes (.uSetCur 0x9C) start = true := by decide

end Sys2Proof.Tests
end

/-! # Proofs of the statements about the state (10_state.md)

Every group is its writes followed by its event (`exec_group`), every command has an inversion lemma, and a step is
idle, an acknowledgement, or one decoded operation (`step_next`). The statements are read off these. -/

namespace Sys2Proof.Machine

/-! ### A group as its writes and its event -/

/-- What a group writes up to its event point (40_dispatch_basic.md, 41_text_reassembly.md, 42_oda_eon.md). A command
writes nothing here. -/
def groupWrites (s : State) : Instr → State
  | .group0A h b _ ch0 ch1 | .group0B h b ch0 ch1 => psWrite b.seg ch0 ch1 (basicUpdate b (commonUpdate h s))
  | .group15B h b => basicUpdate b (commonUpdate h s)
  | .group1A h la var payload pin => pinUpdate pin (slowUpdate la var payload (commonUpdate h s))
  | .group1B h pin => pinUpdate pin (commonUpdate h s)
  | .group2A h tog seg ch0 ch1 ch2 ch3 =>
    if flips s.rtToggle tog then commonUpdate h s
    else radiotextWrite false tog seg [ch0, ch1, ch2, ch3] (commonUpdate h s)
  | .group2B h tog seg ch0 ch1 =>
    if flips s.rtToggle tog then commonUpdate h s else radiotextWrite false tog seg [ch0, ch1] (commonUpdate h s)
  | .group3A h cig msg aid => slotUpdate cig msg aid (commonUpdate h s)
  | .group4A h mjd hour minute tzSign tzMag =>
    if ctPayload mjd hour minute tzSign tzMag = 0 then commonUpdate h s
    else clockUpdate mjd hour minute tzSign tzMag (commonUpdate h s)
  | .group10A h tog seg ch0 ch1 ch2 ch3 => typeNameWrite tog seg [ch0, ch1, ch2, ch3] (commonUpdate h s)
  | .group14A h tpon var payload pion => eonCommon tpon pion (eonVariantUpdate var payload pion (commonUpdate h s))
  | .group14B h tpon taon pion =>
    { eonCommon tpon pion (commonUpdate h s) with
      eon := { (eonCommon tpon pion (commonUpdate h s)).eon with ta := taon } }
  | .group3B h .. | .group4B h .. | .group5A h .. | .group5B h .. | .group6A h .. | .group6B h .. | .group7A h
  | .group7B h .. | .group8A h .. | .group8B h .. | .group9A h | .group9B h .. | .group10B h .. | .group11A h ..
  | .group11B h .. | .group12A h .. | .group12B h .. | .group13A h | .group13B h .. | .group15A h => commonUpdate h s
  | _ => s

/-- The event a group raises, with the part of the group behind it (60_exceptions.md R355, R362). -/
def groupEvent (s : State) : Instr → Option Pending
  | .group0A _ _ afpair _ _ => some ⟨⟨.af, 0, true, afpair, 0⟩, .nothing⟩
  | .group2A _ tog seg ch0 ch1 ch2 ch3 =>
    if flips s.rtToggle tog then some ⟨⟨.rt, 0, true, 0, 0⟩, .radiotext4 tog seg ch0 ch1 ch2 ch3⟩ else none
  | .group2B _ tog seg ch0 ch1 =>
    if flips s.rtToggle tog then some ⟨⟨.rt, 0, false, 0, 0⟩, .radiotext2 tog seg ch0 ch1⟩ else none
  | .group3A _ cig msg aid => some ⟨⟨announcementKind Config.kind3A, cig.setWidth 8, true, msg, aid⟩, .nothing⟩
  | .group14A _ _ var payload pion => (eonEventParam var).map fun n => ⟨⟨.eon, n, true, payload, pion⟩, .nothing⟩
  | .group5A _ sub c d => some ⟨⟨.tdc, sub.setWidth 8, true, c, d⟩, .nothing⟩
  | .group5B _ sub d => some ⟨⟨.tdc, sub.setWidth 8, false, 0, d⟩, .nothing⟩
  | .group8A _ sub c d => some ⟨⟨.tmc, sub.setWidth 8, true, c, d⟩, .nothing⟩
  | .group6A _ sub c d | .group11A _ sub c d | .group12A _ sub c d =>
    some ⟨⟨.oda, sub.setWidth 8, true, c, d⟩, .nothing⟩
  | .group3B _ sub d | .group4B _ sub d | .group6B _ sub d | .group7B _ sub d | .group8B _ sub d | .group9B _ sub d
  | .group10B _ sub d | .group11B _ sub d | .group12B _ sub d | .group13B _ sub d =>
    some ⟨⟨.oda, sub.setWidth 8, false, 0, d⟩, .nothing⟩
  | _ => none

/-- Raise the event, if there is one. -/
def raiseEvent : Option Pending → State → State
  | none, s => s
  | some p, s => emit p.event.kind p.event.n p.event.f p.event.w1 p.event.w2 p.rest s

/-- Every group, on an idle block, makes its writes and then raises its event. -/
theorem exec_group {i : Instr} (hg : isGroup i = true) (s : State) :
    exec i s = whenIdle (fun s => raiseEvent (groupEvent s i) (groupWrites s i)) s := by
  cases i with
  | group2A h tog seg ch0 ch1 ch2 ch3 =>
    simp only [exec, execGroup2A]
    refine congrArg (whenIdle · s) (funext fun u => ?_)
    by_cases hf : flips u.rtToggle tog = true <;> simp [groupEvent, groupWrites, raiseEvent, hf]
  | group2B h tog seg ch0 ch1 =>
    simp only [exec, execGroup2B]
    refine congrArg (whenIdle · s) (funext fun u => ?_)
    by_cases hf : flips u.rtToggle tog = true <;> simp [groupEvent, groupWrites, raiseEvent, hf]
  | group14A h tpon var payload pion =>
    simp only [exec, execGroup14A]
    refine congrArg (whenIdle · s) (funext fun u => ?_)
    cases hv : eonEventParam var <;> simp [groupEvent, groupWrites, raiseEvent, hv]
  | reset | qStatus | qText | qTime | evCfg | cDecrypt | cDecryptX | cLookup | uClear | uLoad | uGlue | uFlt | uRestart
  | uSetCur | uRead | uLabel | tClass3A | tClass8A => cases hg
  | _ => rfl

/-! ### What a completed operation has done -/

/-- A group that completes ran on an idle block. -/
theorem exec_group_next {i : Instr} {s t : State} (hg : isGroup i = true) (h : exec i s = .next t) :
    s.pending = none ∧ t = raiseEvent (groupEvent s i) (groupWrites s i) :=
  whenIdle_next (exec_group hg s ▸ h)

/-- GROUP.4A: the common update, and the clock time unless blocks C and D are zero (40_dispatch_basic.md R160, R161). -/
theorem exec_group4A_next {hd : Head} {mjd : BitVec 17} {hour : BitVec 5} {minute : BitVec 6} {tzSign : Bool}
    {tzMag : BitVec 5} {s t : State} (h : exec (.group4A hd mjd hour minute tzSign tzMag) s = .next t) :
    (ctPayload mjd hour minute tzSign tzMag = 0 ∧ t = commonUpdate hd s) ∨
      (ctPayload mjd hour minute tzSign tzMag ≠ 0 ∧
        t = clockUpdate mjd hour minute tzSign tzMag (commonUpdate hd s)) := by
  obtain ⟨-, rfl⟩ := exec_group_next rfl h
  by_cases hz : ctPayload mjd hour minute tzSign tzMag = 0
  · exact .inl ⟨hz, if_pos hz⟩
  · exact .inr ⟨hz, if_neg hz⟩

theorem exec_reset_next {s t : State} (h : exec .reset s = .next t) :
    s.pending = none ∧ t = answer .none (stationReset s) := by
  simp only [exec, execReset] at h
  exact whenIdle_next h

theorem exec_evCfg_next {mask : BitVec 7} {s t : State} (h : exec (.evCfg mask) s = .next t) :
    s.pending = none ∧ t = answer .none { s with even := mask } := by
  simp only [exec, execEvCfg] at h
  exact whenIdle_next h

theorem exec_qText_next {buf : BitVec 2} {s t : State} (h : exec (.qText buf) s = .next t) :
    ∃ sp, textSelector buf = some sp ∧ t = answer (.text (filteredBuffer s sp)) s := by
  simp only [exec, execQText] at h
  split at h <;> cases h
  exact ⟨_, by assumption, rfl⟩

/-- U.FLT answers, and writes no more than the container (44_bit_unpacker.md R296, R298). -/
theorem exec_uFlt_next {w : Block} {s t : State} (h : exec (.uFlt w) s = .next t) :
    ∃ r c, t = answer r { s with cont := c } := by
  simp only [exec, execUFlt] at h
  cases h
  split
  · exact ⟨_, _, rfl⟩
  · exact ⟨_, s.cont, rfl⟩

theorem exec_uSetCur_next {c : BitVec 8} {s t : State} (h : exec (.uSetCur c) s = .next t) :
    legalCursor (cursorOfWord c) = true ∧ t = answer .none { s with cur := cursorOfWord c } := by
  simp only [exec, execUSetCur] at h
  split at h <;> cases h
  exact ⟨by assumption, rfl⟩

theorem exec_uRead_next {size : BitVec 5} {s t : State} (h : exec (.uRead size) s = .next t) :
    t = answer (.bits (readField s.cont s.cur size.toNat).1)
      { s with cur := (readField s.cont s.cur size.toNat).2 } := by
  simp only [exec, execURead] at h
  split at h
  · split at h <;> cases h
    rfl
  · cases h

theorem exec_uLabel_next {s t : State} (h : exec .uLabel s = .next t) :
    t = answer (.label (!atEof (readLabel s.cont s.cur).2.2) (readLabel s.cont s.cur).1 (readLabel s.cont s.cur).2.1)
      { s with cur := (readLabel s.cont s.cur).2.2 } := by
  simp only [exec, execULabel] at h
  split at h <;> cases h
  rfl

/-- One step with a next state: no request, an acknowledgement, or an operation the decoder reads. -/
theorem step_next {s t : State} (h : step s = .next t) :
    (s.inbox = [] ∧ t = s) ∨
      (∃ rest p, s.inbox = .ack :: rest ∧ s.pending = some p ∧
        t = runRest p.rest { s with inbox := rest, pending := none }) ∨
      ∃ p i rest, s.inbox = .op p :: rest ∧ decode p = .ok i ∧ exec i { s with inbox := rest } = .next t := by
  rcases step_cases s with ⟨hin, hstep⟩ | ⟨r, rest, hin, hstep⟩
  · rw [hstep] at h
    cases h
    exact .inl ⟨hin, rfl⟩
  · rcases serve_next (hstep ▸ h) with ⟨rfl, hack⟩ | ⟨p, i, rfl, hd, he⟩
    · obtain ⟨p, hp, ht⟩ := acknowledge_next hack
      exact .inr (.inl ⟨rest, p, hin, hp, ht⟩)
    · exact .inr (.inr ⟨p, i, rest, hin, hd, he⟩)

/-! ### Frames: what an operation leaves alone -/

/-- A GROUP.4A, the one writer of the time fields (10_state.md R32). -/
def IsClockGroup (i : Instr) : Prop :=
  ∃ h mjd hour minute tzSign tzMag, i = .group4A h mjd hour minute tzSign tzMag

/-- What the writes of a group other than 4A may change. -/
theorem groupWrites_frame {i : Instr} (h4 : ¬IsClockGroup i) (s : State) :
    groupWrites s i =
      { s with
        reg := (groupWrites s i).reg, ps := (groupWrites s i).ps, ptyn := (groupWrites s i).ptyn,
        rt := (groupWrites s i).rt, slot := (groupWrites s i).slot, eon := (groupWrites s i).eon,
        rtToggle := (groupWrites s i).rtToggle, ptynToggle := (groupWrites s i).ptynToggle } := by
  cases i with
  | group1A => simp only [groupWrites, slowUpdate]; split <;> rfl
  | group2A | group2B => simp only [groupWrites]; split <;> rfl
  | group3A => simp only [groupWrites, slotUpdate]; split <;> rfl
  | group4A h mjd hour minute tzSign tzMag => exact absurd ⟨h, mjd, hour, minute, tzSign, tzMag, rfl⟩ h4
  | group14A => simp only [groupWrites, eonVariantUpdate]; split <;> rfl
  | _ => rfl

/-- No group writes the other network's item number (10_state.md R31). -/
@[simp] theorem groupWrites_eonPin (s : State) (i : Instr) : (groupWrites s i).eon.pin = s.eon.pin := by
  cases i with
  | group1A | group3A => simp [groupWrites]
  | group2A | group2B | group4A => simp only [groupWrites]; split <;> simp
  | group14A => simp [groupWrites, eonVariantUpdate_eq]
  | _ => rfl

/-- What raising an event may change (60_exceptions.md R358). -/
theorem raiseEvent_frame (e : Option Pending) (s : State) :
    raiseEvent e s =
      { s with
        rt := (raiseEvent e s).rt, rtToggle := (raiseEvent e s).rtToggle, pending := (raiseEvent e s).pending } := by
  cases e with
  | none => rfl
  | some p => exact emit_frame ..

@[simp] theorem raiseEvent_eon (e : Option Pending) (s : State) : (raiseEvent e s).eon = s.eon :=
  (congrArg (fun x : State => x.eon) (raiseEvent_frame e s) :)
@[simp] theorem raiseEvent_timeAvailable (e : Option Pending) (s : State) :
    (raiseEvent e s).timeAvailable = s.timeAvailable :=
  (congrArg (fun x : State => x.timeAvailable) (raiseEvent_frame e s) :)
@[simp] theorem raiseEvent_time (e : Option Pending) (s : State) : (raiseEvent e s).time = s.time :=
  (congrArg (fun x : State => x.time) (raiseEvent_frame e s) :)
@[simp] theorem raiseEvent_draws (e : Option Pending) (s : State) : (raiseEvent e s).draws = s.draws :=
  (congrArg (fun x : State => x.draws) (raiseEvent_frame e s) :)

/-- What a command other than RESET may change (46_host_ops.md R332 to R340, 44_bit_unpacker.md). -/
theorem exec_command_frame {i : Instr} {s t : State} (hg : isGroup i = false) (hr : i ≠ .reset)
    (h : exec i s = .next t) : t = { s with even := t.even, cont := t.cont, cur := t.cur, result := t.result } := by
  cases i with
  | reset => exact absurd rfl hr
  | evCfg => obtain ⟨-, rfl⟩ := exec_evCfg_next h; rfl
  | qText => obtain ⟨-, -, rfl⟩ := exec_qText_next h; rfl
  | uFlt => obtain ⟨-, -, rfl⟩ := exec_uFlt_next h; rfl
  | uSetCur => obtain ⟨-, rfl⟩ := exec_uSetCur_next h; rfl
  | uRead => obtain rfl := exec_uRead_next h; rfl
  | uLabel => obtain rfl := exec_uLabel_next h; rfl
  | qStatus | qTime | cDecrypt | cDecryptX | cLookup | uClear | uLoad | uGlue | uRestart | tClass3A | tClass8A =>
    cases h; rfl
  | _ => cases hg

/-- Three sorts of operation: a group, RESET, and a command that leaves the station's registers alone. -/
theorem group_or_reset_or_command (i : Instr) :
    isGroup i = true ∨ i = .reset ∨ isGroup i = false ∧ i ≠ .reset := by
  by_cases hg : isGroup i = true
  · exact .inl hg
  · by_cases hr : i = .reset
    · exact .inr (.inl hr)
    · exact .inr (.inr ⟨by simpa using hg, hr⟩)

/-- Only RESET writes the other network's item number, and it writes 0 (10_state.md R31; log 10). -/
theorem exec_eonPin {i : Instr} {s t : State} (h : exec i s = .next t) : t.eon.pin = 0 ∨ t.eon.pin = s.eon.pin := by
  rcases group_or_reset_or_command i with hg | rfl | ⟨hg, hr⟩
  · obtain ⟨-, rfl⟩ := exec_group_next hg h
    exact .inr (by simp)
  · obtain ⟨-, rfl⟩ := exec_reset_next h
    exact .inl rfl
  · rw [exec_command_frame hg hr h]
    exact .inr rfl

/-- Only GROUP.4A writes the time fields and the draw counter, only it and RESET the flag (10_state.md R33, R34;
log 6). -/
theorem exec_keeps_time {i : Instr} {s t : State} (h4 : ¬IsClockGroup i) (h : exec i s = .next t) :
    t.time = s.time ∧ t.draws = s.draws ∧ (i = .reset ∨ t.timeAvailable = s.timeAvailable) := by
  rcases group_or_reset_or_command i with hg | rfl | ⟨hg, hr⟩
  · obtain ⟨-, rfl⟩ := exec_group_next hg h
    rw [groupWrites_frame h4]
    simp
  · obtain ⟨-, rfl⟩ := exec_reset_next h
    exact ⟨rfl, rfl, .inl rfl⟩
  · rw [exec_command_frame hg hr h]
    exact ⟨rfl, rfl, .inr rfl⟩

/-! ### The host's side: what no operation reads

A run beside another request list and another last answer is the same run (log 1, 5): every shared update commutes with
`State.beside`, so every request does. -/

/-- `s` beside another request list and another last answer. -/
def State.beside (s : State) (q : List Request) (r : Result) : State := { s with inbox := q, result := r }

/-- The outcome with its next state changed. -/
def mapNext (f : State → State) : Host.Outcome State Fault Refusal → Host.Outcome State Fault Refusal
  | .next s => .next (f s)
  | .fault e => .fault e
  | .refused e => .refused e

/-- The last answer after a request: a command's own, else the one before. -/
def lastAnswer (old own : Result) : Request → Result
  | .op (.command _) => own
  | .op (.group _) => old
  | .ack => old

/-- A command that takes the decoder's operand check is the command of its code. -/
theorem operandsWithin_ok {used w : BitVec 48} {i j : Instr} (h : operandsWithin used w j = .ok i) : i = j := by
  unfold operandsWithin at h
  split at h <;> cases h
  rfl

/-- The operations of the CMD port are no groups (30_encoding.md R128). -/
theorem isGroup_decodeCommand {w : BitVec 48} {i : Instr} (h : decodeCommand w = .ok i) : isGroup i = false := by
  unfold decodeCommand at h
  split at h
  case h_19 => cases h
  all_goals rw [operandsWithin_ok h]; rfl

/-- Every word of the GRP port is a group (30_encoding.md R116). -/
theorem isGroup_decodeGroup (w : BitVec 64) : isGroup (decodeGroup w) = true := by
  unfold decodeGroup
  dsimp only
  split <;> rfl

section Beside

variable (q : List Request) (r : Result) (s : State)

@[simp] theorem beside_pending : (s.beside q r).pending = s.pending := rfl
@[simp] theorem beside_rtToggle : (s.beside q r).rtToggle = s.rtToggle := rfl
@[simp] theorem beside_even : (s.beside q r).even = s.even := rfl
@[simp] theorem beside_cur : (s.beside q r).cur = s.cur := rfl
theorem beside_self : s.beside s.inbox s.result = s := rfl

theorem runRest_beside (rest : Rest) : runRest rest (s.beside q r) = (runRest rest s).beside q r := by
  cases rest <;> rfl

theorem raiseEvent_beside (e : Option Pending) : raiseEvent e (s.beside q r) = (raiseEvent e s).beside q r := by
  cases e with
  | none => rfl
  | some p =>
    simp only [raiseEvent, emit, beside_even, runRest_beside]
    split <;> rfl

theorem groupEvent_beside (i : Instr) : groupEvent (s.beside q r) i = groupEvent s i := by
  cases i <;> rfl

theorem groupWrites_beside (i : Instr) : groupWrites (s.beside q r) i = (groupWrites s i).beside q r := by
  cases i with
  | group1A => simp only [groupWrites, slowUpdate]; split <;> rfl
  | group2A h tog | group2B h tog =>
    by_cases hf : flips s.rtToggle tog = true <;> simp only [groupWrites, beside_rtToggle, hf] <;> rfl
  | group3A => simp only [groupWrites, slotUpdate]; split <;> rfl
  | group4A =>
    simp only [groupWrites, clockUpdate]
    split
    · rfl
    · split <;> rfl
  | group14A => simp only [groupWrites, eonVariantUpdate]; split <;> rfl
  | _ => rfl

theorem whenIdle_beside {f : State → State} (x : State → Result)
    (h : f (s.beside q r) = (f s).beside q (x (f s))) :
    whenIdle f (s.beside q r) = mapNext (fun t => t.beside q (x t)) (whenIdle f s) := by
  cases hp : s.pending with
  | none => rw [whenIdle_idle f hp, whenIdle_idle f (by exact hp), h]; rfl
  | some p => rw [whenIdle_pending f hp, whenIdle_pending f (by exact hp)]; rfl

theorem acknowledge_beside : acknowledge (s.beside q r) = mapNext (·.beside q r) (acknowledge s) := by
  cases hp : s.pending with
  | none => simp [acknowledge, hp, mapNext]
  | some p =>
    simp only [acknowledge, hp, mapNext, beside_pending]
    exact congrArg _ (runRest_beside q r { s with pending := none } p.rest)

/-- An operation reads neither the request list nor the last answer; a group leaves both as they are, a command only
the list. -/
theorem exec_beside (i : Instr) :
    exec i (s.beside q r) = mapNext (fun t => t.beside q (if isGroup i then r else t.result)) (exec i s) := by
  by_cases hg : isGroup i = true
  · rw [exec_group hg, exec_group hg, hg]
    refine whenIdle_beside q r s (fun _ => r) ?_
    rw [groupEvent_beside, groupWrites_beside, raiseEvent_beside]
  cases i with
  | reset =>
    simp only [exec, execReset]
    exact whenIdle_beside q r s (fun t => t.result) rfl
  | evCfg mask =>
    simp only [exec, execEvCfg]
    exact whenIdle_beside q r s (fun t => t.result) rfl
  | qText => simp only [exec, execQText]; split <;> rfl
  | uFlt => simp only [exec, execUFlt]; split <;> rfl
  | uSetCur => simp only [exec, execUSetCur]; split <;> rfl
  | uRead =>
    by_cases hr : readable s.cur = true <;> simp only [exec, execURead, beside_cur, hr] <;> split <;> rfl
  | uLabel =>
    by_cases hr : readable s.cur = true <;> simp only [exec, execULabel, beside_cur, hr] <;> rfl
  | qStatus | qTime | cDecrypt | cDecryptX | cLookup | uClear | uLoad | uGlue | uRestart | tClass3A | tClass8A => rfl
  | _ => exact absurd rfl hg

/-- A request reads neither the request list nor the last answer. -/
theorem serve_beside (req : Request) :
    serve req (s.beside q r) = mapNext (fun t => t.beside q (lastAnswer r t.result req)) (serve req s) := by
  cases req with
  | ack => exact acknowledge_beside q r s
  | op p =>
    cases p with
    | group w =>
      have h := exec_beside q r s (decodeGroup w)
      rw [isGroup_decodeGroup] at h
      exact h
    | command w =>
      cases hd : decode (.command w) with
      | error e => simp only [serve, hd, mapNext]
      | ok i =>
        have h := exec_beside q r s i
        rw [isGroup_decodeCommand hd] at h
        simp only [serve, hd]
        exact h

end Beside

/-- A step serves the first request beside the rest of the list. -/
theorem step_eq_serve {s : State} {req : Request} {rest : List Request} (h : s.inbox = req :: rest) :
    step s = mapNext (fun t => t.beside rest (lastAnswer s.result t.result req)) (serve req s) := by
  rw [← serve_beside rest s.result s req]
  unfold step nextRequest
  rw [h]
  rfl

/-- The block's transition serves the request beside no list and no answer. -/
theorem transition_of_serve_next {s u : State} {req : Request} (h : serve req s = .next u) :
    transition req s.draws s.toBlockState = .next (u.toBlockState, lastAnswer .none u.result req) := by
  have hb := serve_beside [] .none s req
  rw [h] at hb
  unfold transition
  rw [show serve req ⟨s.toBlockState, { HostSide.silent with draws := s.draws }⟩ = _ from hb]
  rfl

/-- The block's transition is refused as the request is. -/
theorem transition_of_serve_refused {s : State} {req : Request} {e : Refusal} (h : serve req s = .refused e) :
    transition req s.draws s.toBlockState = .refused e := by
  have hb := serve_beside [] .none s req
  rw [h] at hb
  unfold transition
  rw [show serve req ⟨s.toBlockState, { HostSide.silent with draws := s.draws }⟩ = _ from hb]
  rfl

/-! ### The operands of GROUP.4A and the cursors a read refuses -/

/-- A concatenation is zero exactly when both its parts are. -/
theorem append_eq_zero {m n : Nat} {x : BitVec m} {y : BitVec n} : x ++ y = 0#(m + n) ↔ x = 0#m ∧ y = 0#n := by
  constructor
  · intro h
    have hx := BitVec.extractLsb'_append_eq_left (a := x) (b := y)
    have hy := BitVec.extractLsb'_append_eq_right (a := x) (b := y)
    rw [h] at hx hy
    exact ⟨by simpa using hx.symm, by simpa using hy.symm⟩
  · rintro ⟨rfl, rfl⟩
    exact BitVec.zero_append_zero

/-- A 4A group's payload is zero exactly when each of its fields is (40_dispatch_basic.md R160, R161). -/
theorem ctPayload_eq_zero {mjd : BitVec 17} {hour : BitVec 5} {minute : BitVec 6} {tzSign : Bool} {tzMag : BitVec 5} :
    ctPayload mjd hour minute tzSign tzMag = 0 ↔
      mjd.extractLsb' 0 15 = 0 ∧ hour = 0 ∧ minute = 0 ∧ tzSign = false ∧ tzMag = 0 := by
  change _ = 0#(15 + 5 + 6 + 1 + 5) ↔ _
  unfold ctPayload
  rw [append_eq_zero, append_eq_zero, append_eq_zero, append_eq_zero]
  cases tzSign <;> simp [and_assoc]

/-- The cursor values 10_state.md R42 calls illegal are not readable. -/
theorem not_readable {c : Cursor}
    (h : (c.sliceIndex = 0 ∧ c.bitIndex ≠ 0) ∨ c.sliceIndex = 5 ∨ c.sliceIndex = 7) : readable c = false := by
  rcases h with ⟨hs, hb⟩ | hs | hs
  · have hb' : c.bitIndex.toNat ≠ 0 := fun h0 => hb (BitVec.eq_of_toNat_eq h0)
    simp [readable, legalCursor, atEof, hs, hb']
  · simp [readable, legalCursor, atEof, hs]
  · simp [readable, legalCursor, atEof, hs]

/-! ### The invariant, update by update -/

/-- The invariant is about the block's state alone, not the host's side. -/
theorem Inv.of_sameBlock {s t : State} (hs : Inv s) (h : t.toBlockState = s.toBlockState) : Inv t := by
  obtain ⟨b, k⟩ := t
  obtain ⟨b', k'⟩ := s
  cases h
  exact { hs with }

theorem Inv.answer {s : State} (hs : Inv s) (r : Result) : Inv (answer r s) := hs.of_sameBlock rfl

theorem Inv.withReg {s : State} (hs : Inv s) (reg : Scalars) : Inv { s with reg := reg } := { hs with }

theorem Inv.withCont {s : State} (hs : Inv s) (c : Cont) : Inv { s with cont := c } := { hs with }

theorem Inv.withCur {s : State} (hs : Inv s) {c : Cursor} (hc : legalCursor c = true) : Inv { s with cur := c } :=
  { hs with cursorLegal := hc }

theorem legalCursor_fresh : legalCursor Cursor.fresh = true := rfl

theorem Inv.withEon {s : State} (hs : Inv s) {e : EonRecord} (he : Memory.wf .eonPs e.ps) : Inv { s with eon := e } :=
  { hs with eonPsCanonical := he }

theorem Inv.idle {s : State} (hs : Inv s) : Inv { s with pending := none } :=
  { hs with pendingSound := fun _ h => nomatch h }

/-- The mask changes only on an idle block (60_exceptions.md R361), so no event waits under a mask without its kind. -/
theorem Inv.withEven {s : State} (hs : Inv s) (hidle : s.pending = none) (mask : BitVec 7) :
    Inv { s with even := mask } :=
  { hs with pendingSound := fun _ hp => nomatch hidle.symm.trans hp }

theorem Inv.psWrite {s : State} (hs : Inv s) (seg : BitVec 2) (ch0 ch1 : Byte) : Inv (psWrite seg ch0 ch1 s) :=
  { hs with
    psCanonical := segWrite_wf hs.psCanonical (by
      have := seg.isLt
      simp only [List.length_cons, List.length_nil, spaceSize]
      omega) }

theorem Inv.typeNameWrite {s : State} (hs : Inv s) (tog : Bool) (seg : BitVec 1) (ch0 ch1 ch2 ch3 : Byte) :
    Inv (typeNameWrite tog seg [ch0, ch1, ch2, ch3] s) :=
  { hs with
    ptynCanonical := segWrite_wf (by split; exacts [clearedBuffer_wf _, hs.ptynCanonical]) (by
      have := seg.isLt
      simp only [List.length_cons, List.length_nil, spaceSize]
      omega) }

theorem Inv.radiotextWrite {s : State} (hs : Inv s) (flip tog : Bool) (seg : BitVec 4) {chars : List Byte}
    (hc : chars.length ≤ 4) : Inv (radiotextWrite flip tog seg chars s) :=
  { hs with
    rtCanonical := segWrite_wf (by split; exacts [clearedBuffer_wf _, hs.rtCanonical]) (by
      have hseg : seg.toNat + 1 ≤ 16 := seg.isLt
      calc chars.length * seg.toNat + chars.length = chars.length * (seg.toNat + 1) := by ring
        _ ≤ 4 * 16 := Nat.mul_le_mul hc hseg) }

theorem Inv.runRest {s : State} (hs : Inv s) (r : Rest) : Inv (runRest r s) := by
  cases r with
  | nothing => exact hs
  | radiotext4 tog seg ch0 ch1 ch2 ch3 => exact hs.radiotextWrite true tog seg (by simp)
  | radiotext2 tog seg ch0 ch1 => exact hs.radiotextWrite true tog seg (by simp)

/-- An event waits only if its kind is enabled (60_exceptions.md R358), so its shape is all a group owes. -/
theorem Inv.raiseEvent {s : State} (hs : Inv s) {e : Option Pending} (he : ∀ p, e = some p → eventShape p = true) :
    Inv (raiseEvent e s) := by
  cases e with
  | none => exact hs
  | some p =>
    simp only [Machine.raiseEvent]
    rcases emit_cases p.event.kind p.event.n p.event.f p.event.w1 p.event.w2 p.rest s with ⟨hk, h⟩ | ⟨-, h⟩
    · rw [h]
      refine { hs with pendingSound := fun q hq => ?_ }
      cases hq
      exact ⟨he p rfl, hk⟩
    · rw [h]
      exact hs.runRest p.rest

theorem weekdayOfMjd_range (mjd : Nat) : 1 ≤ weekdayOfMjd mjd ∧ weekdayOfMjd mjd ≤ 7 := by
  unfold weekdayOfMjd
  omega

theorem tzMinutes_range (tzSign : Bool) (tzMag : BitVec 5) :
    -930 ≤ tzMinutes tzSign tzMag ∧ tzMinutes tzSign tzMag ≤ 930 ∧ tzMinutes tzSign tzMag % 30 = 0 := by
  have := tzMag.isLt
  unfold tzMinutes
  split <;> omega

theorem Inv.clockUpdate {s : State} (hs : Inv s) (mjd : BitVec 17) (hour : BitVec 5) (minute : BitVec 6)
    (tzSign : Bool) (tzMag : BitVec 5) : Inv (clockUpdate mjd hour minute tzSign tzMag s) := by
  obtain ⟨hw1, hw7⟩ := weekdayOfMjd_range mjd.toNat
  have htime : timeSound (Machine.clockUpdate mjd hour minute tzSign tzMag s).time := by
    rcases clockUpdate_cases mjd hour minute tzSign tzMag s with ⟨-, ht, -⟩ | ⟨-, ht, -⟩ <;> rw [ht] <;>
      exact ⟨by simpa using hw1, by simpa using hw7, tzMinutes_range tzSign tzMag⟩
  rw [clockUpdate_frame]
  exact { hs with timeInRange := fun _ => htime }

/-- The slot an application id selects may hold it (10_state.md R28, 42_oda_eon.md R210, R211). -/
theorem slotsSound_setSlot {sl : Slots} (h : slotsSound Config.aids sl) {aid : Block} {cig : BitVec 5} {k : SlotId}
    (hk : slotOf Config.aids aid cig = some k) (msg : Block) :
    slotsSound Config.aids (setSlot sl k ⟨cig, msg, aid⟩) := by
  obtain ⟨hirds, hrtp, hert, htmc⟩ := h
  rcases slotOf_some hk with ⟨rfl, ha⟩ | ⟨rfl, ha⟩ | ⟨rfl, ha⟩ | ⟨rfl, ha⟩ | ⟨rfl, ha, -⟩
  · exact ⟨hirds, hrtp, .inr ha, htmc⟩
  · exact ⟨hirds, .inr ha, hert, htmc⟩
  · exact ⟨.inr ha, hrtp, hert, htmc⟩
  · exact ⟨hirds, hrtp, hert, .inr ha⟩
  · exact ⟨hirds, hrtp, hert, .inl ha⟩

theorem Inv.slotUpdate {s : State} (hs : Inv s) (cig : BitVec 5) (msg aid : Block) : Inv (slotUpdate cig msg aid s) := by
  rcases slotUpdate_cases cig msg aid s with ⟨k, hk, h⟩ | ⟨-, h⟩ <;> rw [h]
  · exact { hs with slotsKnown := slotsSound_setSlot hs.slotsKnown hk msg }
  · exact hs

theorem Inv.eonVariantUpdate {s : State} (hs : Inv s) (var : BitVec 4) (payload pion : Block) :
    Inv (eonVariantUpdate var payload pion s) := by
  rw [eonVariantUpdate_eq]
  refine hs.withEon ?_
  dsimp only
  split
  · refine segWrite_wf hs.eonPsCanonical ?_
    simp only [List.length_cons, List.length_nil, spaceSize]
    omega
  · exact hs.eonPsCanonical

theorem Inv.stationReset {s : State} (hs : Inv s) : Inv (stationReset s) :=
  { hs with
    psCanonical := clearedBuffer_wf _
    ptynCanonical := clearedBuffer_wf _
    rtCanonical := clearedBuffer_wf _
    eonPsCanonical := clearedBuffer_wf _
    slotsKnown := ⟨.inl rfl, .inl rfl, .inl rfl, .inl rfl⟩
    timeInRange := fun h => nomatch h }

/-! ### The invariant, operation by operation -/

theorem Inv.groupWrites {s : State} (hs : Inv s) (i : Instr) : Inv (groupWrites s i) := by
  have hcommon (h : Head) : Inv (commonUpdate h s) := hs.withReg _
  cases i with
  | group0A h b afpair ch0 ch1 => exact ((hcommon h).withReg _).psWrite b.seg ch0 ch1
  | group0B h b ch0 ch1 => exact ((hcommon h).withReg _).psWrite b.seg ch0 ch1
  | group1A h la var payload pin =>
    simp only [Machine.groupWrites]
    rw [slowUpdate_frame]
    exact ((hcommon h).withReg _).withReg _
  | group1B h pin => exact (hcommon h).withReg _
  | group2A h tog seg | group2B h tog seg =>
    simp only [Machine.groupWrites]
    split
    · exact hcommon h
    · exact (hcommon h).radiotextWrite false tog seg (by simp)
  | group3A h cig msg aid => exact (hcommon h).slotUpdate cig msg aid
  | group4A h mjd hour minute tzSign tzMag =>
    simp only [Machine.groupWrites]
    split
    · exact hcommon h
    · exact (hcommon h).clockUpdate mjd hour minute tzSign tzMag
  | group10A h tog seg ch0 ch1 ch2 ch3 => exact (hcommon h).typeNameWrite tog seg ch0 ch1 ch2 ch3
  | group14A h tpon var payload pion =>
    have hvar := (hcommon h).eonVariantUpdate var payload pion
    exact hvar.withEon hvar.eonPsCanonical
  | group14B h tpon taon pion => exact (hcommon h).withEon hs.eonPsCanonical
  | group15B h b => exact (hcommon h).withReg _
  | reset | qStatus | qText | qTime | evCfg | cDecrypt | cDecryptX | cLookup | uClear | uLoad | uGlue | uFlt | uRestart
  | uSetCur | uRead | uLabel | tClass3A | tClass8A => exact hs
  | _ => exact hcommon _

/-- Every event a group raises has the shape of its kind (60_exceptions.md R355). -/
theorem groupEvent_shape {s : State} {i : Instr} {p : Pending} (h : groupEvent s i = some p) : eventShape p = true := by
  have hsub (sub : BitVec 5) : sub.toNat % 256 < 32 := by
    have := sub.isLt
    omega
  cases i with
  | group0A => cases h; rfl
  | group2A | group2B =>
    simp only [groupEvent] at h
    split at h <;> cases h
    rfl
  | group3A =>
    cases h
    cases Config.kind3A <;> simp [eventShape, announcementKind, hsub]
  | group14A =>
    simp only [groupEvent, eonEventParam_eq] at h
    split at h <;> cases h
    simp only [eventShape]
    split
    · rfl
    · split <;> rfl
  | group5A | group5B | group6A | group8A | group11A | group12A | group3B | group4B | group6B | group7B | group8B
  | group9B | group10B | group11B | group12B | group13B => cases h; simp [eventShape, hsub]
  | _ => cases h

theorem Inv.exec_command {i : Instr} {s t : State} (hs : Inv s) (hg : isGroup i = false) (h : exec i s = .next t) :
    Inv t := by
  cases i with
  | reset =>
    obtain ⟨-, rfl⟩ := exec_reset_next h
    exact hs.stationReset.answer _
  | evCfg =>
    obtain ⟨hidle, rfl⟩ := exec_evCfg_next h
    exact (hs.withEven hidle _).answer _
  | qText =>
    obtain ⟨_, -, rfl⟩ := exec_qText_next h
    exact hs.answer _
  | uClear => cases h; exact ((hs.withCont Cont.zero).withCur legalCursor_fresh).answer .none
  | uLoad | uGlue => cases h; exact (hs.withCont _).answer _
  | uFlt =>
    obtain ⟨_, _, rfl⟩ := exec_uFlt_next h
    exact (hs.withCont _).answer _
  | uRestart => cases h; exact (hs.withCur legalCursor_fresh).answer _
  | uSetCur =>
    obtain ⟨hc, rfl⟩ := exec_uSetCur_next h
    exact (hs.withCur hc).answer _
  | uRead =>
    rw [exec_uRead_next h]
    exact (hs.withCur (readField_legal _ hs.cursorLegal)).answer _
  | uLabel =>
    rw [exec_uLabel_next h]
    exact (hs.withCur (readLabel_legal _ hs.cursorLegal)).answer _
  | qStatus | qTime | cDecrypt | cDecryptX | cLookup | tClass3A | tClass8A => cases h; exact hs.answer _
  | _ => cases hg

theorem Inv.exec {i : Instr} {s t : State} (hs : Inv s) (h : exec i s = .next t) : Inv t := by
  by_cases hg : isGroup i = true
  · obtain ⟨-, rfl⟩ := exec_group_next hg h
    exact (hs.groupWrites i).raiseEvent fun _ hp => groupEvent_shape hp
  · exact hs.exec_command (by simpa using hg) h

/-! ### The statements -/

/-- Settles O33, by the three kinds of step: each operation, and the rest an acknowledgement runs, keeps the
invariant. -/
theorem invKeptByEveryStep : Obligations.InvKeptByEveryStep := by
  intro s t hs h
  rcases step_next h with ⟨-, rfl⟩ | ⟨rest, p, -, -, rfl⟩ | ⟨_, i, rest, -, -, he⟩
  · exact hs
  · exact Inv.runRest (s := { s with inbox := rest, pending := none }) (hs.idle.of_sameBlock rfl) p.rest
  · exact Inv.exec (s := { s with inbox := rest }) (hs.of_sameBlock rfl) he

/-- Settles O31: the operation of the step is a GROUP.4A, or its frame keeps the time. -/
theorem timeStaysAvailableUntilReset : Obligations.TimeStaysAvailableUntilReset := by
  intro s t h
  rcases step_next h with ⟨-, rfl⟩ | ⟨_, p, -, -, rfl⟩ | ⟨p, i, rest, hin, hd, he⟩
  · exact ⟨fun h1 h0 => by simp [h1] at h0, fun hne => absurd rfl hne⟩
  · exact ⟨fun h1 h0 => by simp [h1] at h0, fun hne => absurd (by simp) hne⟩
  by_cases h4 : IsClockGroup i
  · obtain ⟨hd', mjd, hour, minute, tzSign, tzMag, rfl⟩ := h4
    rcases exec_group4A_next he with ⟨-, rfl⟩ | ⟨-, rfl⟩
    · exact ⟨fun h1 h0 => by simp [h1] at h0, fun hne => absurd rfl hne⟩
    · exact ⟨by simp, fun _ => ⟨by simp, p, rest, hd', mjd, hour, minute, tzSign, tzMag, hin, hd⟩⟩
  · obtain ⟨htime, -, hflag⟩ := exec_keeps_time h4 he
    refine ⟨fun h1 h0 => ?_, fun hne => absurd htime hne⟩
    rcases hflag with rfl | hflag
    · exact ⟨p, rest, hin, hd⟩
    · exact absurd (h0.symm.trans (hflag.trans h1)) (by decide)

/-- Settles O32: every kind of step keeps the value or, as RESET does, writes 0. -/
theorem eonPinHasNoWriter : Obligations.EonPinHasNoWriter := by
  intro s t h hpin
  rcases step_next h with ⟨-, rfl⟩ | ⟨_, p, -, -, rfl⟩ | ⟨_, i, _, -, -, he⟩
  · exact hpin
  · simpa using hpin
  · rcases exec_eonPin he with h0 | hsame
    · exact h0
    · exact hsame.trans hpin

/-- Settles O56: the request list and a group's last answer by `exec_beside` at the state's own list and answer, the
draw counter by the two cases of the clock update. -/
theorem ownFieldsOfTheModel : Obligations.OwnFieldsOfTheModel := by
  intro i s t h
  have hside : t = t.beside s.inbox (if isGroup i then s.result else t.result) := by
    have hb := exec_beside s.inbox s.result s i
    rw [beside_self, h] at hb
    exact Host.Outcome.next.inj hb
  refine ⟨(congrArg (fun u : State => u.inbox) hside :), fun hg => ?_, ?_, ?_, ?_⟩
  · rw [hside, hg]
    rfl
  · rintro (rfl | ⟨m, rfl⟩ | rfl | ⟨j, c, rfl⟩ | rfl | rfl | ⟨c, rfl⟩)
    · obtain ⟨-, rfl⟩ := exec_reset_next h; rfl
    · obtain ⟨-, rfl⟩ := exec_evCfg_next h; rfl
    · cases h; rfl
    · cases h; rfl
    · cases h; rfl
    · cases h; rfl
    · obtain ⟨-, rfl⟩ := exec_uSetCur_next h; rfl
  · rintro ⟨hd, mjd, hour, minute, tzSign, tzMag, rfl, hlt, hz⟩
    rcases exec_group4A_next h with ⟨h0, -⟩ | ⟨-, rfl⟩
    · exact absurd (ctPayload_eq_zero.1 h0) hz
    · rcases clockUpdate_cases mjd hour minute tzSign tzMag (commonUpdate hd s) with ⟨hge, -⟩ | ⟨-, -, hdraws⟩
      · omega
      · exact hdraws
  · intro hkeep
    by_cases h4 : IsClockGroup i
    · obtain ⟨hd, mjd, hour, minute, tzSign, tzMag, rfl⟩ := h4
      rcases exec_group4A_next h with ⟨-, rfl⟩ | ⟨h0, rfl⟩
      · rfl
      rcases clockUpdate_cases mjd hour minute tzSign tzMag (commonUpdate hd s) with ⟨-, -, hdraws⟩ | ⟨hlt, -⟩
      · exact hdraws
      rcases hkeep hd mjd hour minute tzSign tzMag rfl with hge | hz
      · omega
      · exact absurd (ctPayload_eq_zero.2 hz) h0
    · obtain ⟨-, hdraws, -⟩ := exec_keeps_time h4 h
      exact hdraws

/-- Settles O58: a step and the block's transition both serve the request, beside different host's sides. -/
theorem stepIsTheBlocksTransition : Obligations.StepIsTheBlocksTransition := by
  intro s req rest hin
  rw [step_eq_serve hin]
  cases hs : serve req s with
  | fault e => cases e
  | refused e => simp [transition_of_serve_refused hs, mapNext]
  | next u =>
    rw [transition_of_serve_next hs]
    refine ⟨?_, ?_, by simp [mapNext]⟩
    · rintro t ht
      cases ht
      refine ⟨rfl, _, rfl, ?_⟩
      cases req with
      | ack => rfl
      | op p => cases p <;> rfl
    · rintro b a ht
      cases ht
      exact ⟨_, rfl, rfl⟩

/-- Settles O6, by running the first request of the list. -/
theorem stepRunsTheDecodedOperation : Obligations.StepRunsTheDecodedOperation := by
  refine ⟨?_, ?_, ?_, ?_⟩
  · intro s p i rest hin hd
    simp [step, nextRequest, hin, serve, hd]
  · intro s p e rest hin hd
    simp [step, nextRequest, hin, serve, hd]
  · intro s nbits w i hd
    have hdec : decode (tablePortWord nbits w) = .ok i := by
      unfold decodeTableWord at hd
      split at hd <;> cases hd
      assumption
    simp only [step, State.withFetchWord, nextRequest, present_inbox, serve, hdec]
    rfl
  · intro s hin
    simp [step, nextRequest, hin]

/-- Settles O41: an illegal cursor is not readable, and both reads test that first. -/
theorem illegalCursorIsRefused : Obligations.IllegalCursorIsRefused := by
  intro s hcur
  have hread : readable s.cur = false := not_readable hcur
  refine ⟨fun size h1 h16 => ?_, ?_⟩
  · simp [exec, execURead, legalReadSize, h1, h16, hread]
  · simp [exec, execULabel, hread]

end Sys2Proof.Machine

/-! # Proofs of the statement about repeated groups (20_memory.md R85)

A canonical memory is determined by its reads, so a byte written a second time changes nothing. The writes of a group
that only overwrites are therefore idempotent, and its event does not depend on the state: the second copy, on the block
the first one leaves, does just what the first did. -/

namespace Sys2Proof.Machine

/-! ### A canonical memory is its reads -/

theorem Memory.wf_cons {sp : Space} {c : Host.Cell} {m : Memory} :
    Memory.wf sp (c :: m) ↔
      (c.1 < spaceSize sp ∧ c.2 ≠ blankByte sp) ∧ (∀ d ∈ m, c.1 < d.1) ∧ Memory.wf sp m := by
  simp only [Memory.wf, List.pairwise_cons, List.forall_mem_cons]
  tauto

/-- A canonical memory lists exactly the bytes that differ from the reset contents. -/
theorem Memory.mem_iff_read {sp : Space} {m : Memory} (h : Memory.wf sp m) (c : Host.Cell) :
    c ∈ m ↔ Memory.read sp m c.1 = c.2 ∧ c.2 ≠ blankByte sp := by
  induction m with
  | nil => simp [eq_comm]
  | cons d m ih =>
    obtain ⟨⟨-, hblank⟩, hlt, hm⟩ := Memory.wf_cons.1 h
    by_cases ha : d.1 = c.1
    · have hnot : c ∉ m := fun hc => (hlt c hc).ne ha
      have hread : Memory.read sp (d :: m) c.1 = d.2 := if_pos ha
      rw [List.mem_cons, hread]
      constructor
      · rintro (rfl | hc)
        · exact ⟨rfl, hblank⟩
        · exact absurd hc hnot
      · rintro ⟨hb, -⟩
        exact .inl (Prod.ext ha.symm hb.symm)
    · have hne : c ≠ d := fun hcd => ha (congrArg Prod.fst hcd.symm)
      have hread : Memory.read sp (d :: m) c.1 = Memory.read sp m c.1 := if_neg ha
      rw [List.mem_cons, hread, ← ih hm]
      exact or_iff_right hne

/-- Two canonical memories with the same bytes are the same list (log 11). -/
theorem Memory.ext_read {sp : Space} {m m' : Memory} (h : Memory.wf sp m) (h' : Memory.wf sp m')
    (hread : ∀ a, Memory.read sp m a = Memory.read sp m' a) : m = m' := by
  have hmem (c : Host.Cell) : c ∈ m ↔ c ∈ m' := by
    rw [Memory.mem_iff_read h, Memory.mem_iff_read h', hread]
  have hnodup {l : Memory} (hl : Memory.wf sp l) : l.Nodup := hl.1.imp fun hlt heq => hlt.ne (congrArg Prod.fst heq)
  exact ((List.perm_ext_iff_of_nodup (hnodup h) (hnodup h')).2 hmem).eq_of_pairwise
    (fun _ _ _ _ hlt hgt => absurd hgt hlt.asymm) h.1 h'.1

/-- A segment written a second time changes nothing (41_text_reassembly.md R180). -/
theorem segWrite_segWrite {sp : Space} {seg : Nat} {bs : List Byte} {m : Memory} (h : Memory.wf sp m)
    (hl : bs.length * seg + bs.length ≤ spaceSize sp) :
    segWrite sp seg bs (segWrite sp seg bs m) = segWrite sp seg bs m := by
  have hwf := segWrite_wf h hl
  refine Memory.ext_read (segWrite_wf hwf hl) hwf fun a => ?_
  rw [read_segWrite sp seg bs (segWrite sp seg bs m), read_segWrite sp seg bs m]
  split <;> rfl

/-- A pair of characters written a second time to one of the four segments of a name changes nothing. -/
theorem segWrite_pair_twice {sp : Space} (hsize : spaceSize sp = 8) {seg : Nat} (hseg : seg ≤ 3) (b0 b1 : Byte)
    {m : Memory} (h : Memory.wf sp m) :
    segWrite sp seg [b0, b1] (segWrite sp seg [b0, b1] m) = segWrite sp seg [b0, b1] m :=
  segWrite_segWrite h (by
    simp only [List.length_cons, List.length_nil, hsize]
    omega)

/-! ### Updates made twice -/

/-- A register written under a condition, written again under the same condition. -/
theorem ite_else_ite {α : Type} (p : Prop) [Decidable p] (x y : α) :
    (if p then x else if p then x else y) = if p then x else y := by
  split <;> rfl

theorem setDi_setDi (old : BitVec 4) (seg : BitVec 2) (di : Bool) :
    setDi (setDi old seg di) seg di = setDi old seg di := by
  refine BitVec.eq_of_getLsbD_eq fun k hk => ?_
  rw [setDi_bit _ _ _ _ hk, setDi_bit _ _ _ _ hk]
  split <;> rfl

theorem setSlot_setSlot (sl : Slots) (k : SlotId) (v : AppIdSlot) : setSlot (setSlot sl k v) k v = setSlot sl k v := by
  cases k <;> rfl

theorem slowUpdate_eq (la : Bool) (var : BitVec 3) (p : BitVec 12) (s : State) :
    slowUpdate la var p s =
      { s with reg :=
        { s.reg with
          li := la,
          opc := if var = 0 then slowOpc p else s.reg.opc,
          ecc := if var = 0 then slowEcc p else s.reg.ecc,
          tmcId := if var = 1 then p else s.reg.tmcId,
          pagId := if var = 2 then p else s.reg.pagId,
          lang := if var = 3 then p else s.reg.lang } } := by
  rw [slowUpdate_frame, slowUpdate_reg]

/-- From MJD 15079 on the clock update is the values of the group, whatever the state (40_dispatch_basic.md R164). -/
theorem clockUpdate_dated {mjd : BitVec 17} (hm : 15079 ≤ mjd.toNat) (hour : BitVec 5) (minute : BitVec 6)
    (tzSign : Bool) (tzMag : BitVec 5) (s : State) :
    clockUpdate mjd hour minute tzSign tzMag s =
      { s with
        timeAvailable := true,
        time := ⟨minute, hour, dayOfMjd mjd.toNat, monthOfMjd mjd.toNat, yearOfMjd mjd.toNat,
          weekdayOfMjd mjd.toNat, tzMinutes tzSign tzMag⟩ } :=
  if_pos hm

/-- A group that only overwrites writes the same on the state it has written (20_memory.md R85). -/
theorem groupWrites_groupWrites {i : Instr} {s : State} (ho : onlyOverwrites i = true) (hs : Inv s) :
    groupWrites (groupWrites s i) i = groupWrites s i := by
  cases i with
  | group0A h b _ ch0 ch1 | group0B h b ch0 ch1 =>
    have hseg := segWrite_pair_twice rfl (Nat.le_of_lt_succ b.seg.isLt) ch0 ch1 hs.psCanonical
    simp [groupWrites, psWrite, basicUpdate, commonUpdate, setDi_setDi, hseg]
  | group1A h la var payload pin => simp [groupWrites, slowUpdate_eq, pinUpdate, commonUpdate, ite_else_ite]
  | group3A h cig msg aid =>
    simp only [groupWrites, slotUpdate]
    cases slotOf Config.aids aid cig with
    | none => rfl
    | some k => simp [commonUpdate, setSlot_setSlot]
  | group4A h mjd hour minute tzSign tzMag =>
    have hm : 15079 ≤ mjd.toNat := of_decide_eq_true ho
    simp only [groupWrites, clockUpdate_dated hm]
    split <;> rfl
  | group14A h tpon var payload pion =>
    by_cases hv : var.toNat ≤ 3
    · have hseg := segWrite_pair_twice rfl hv (payload.extractLsb' 8 8) (payload.extractLsb' 0 8) hs.eonPsCanonical
      simp [groupWrites, eonVariantUpdate_eq, eonCommon, commonUpdate, hv, hseg, ite_else_ite]
    · simp [groupWrites, eonVariantUpdate_eq, eonCommon, commonUpdate, hv, ite_else_ite]
  | group15B h b => simp [groupWrites, basicUpdate, commonUpdate, setDi_setDi]
  | group1B | group14B => rfl
  | _ => cases ho

/-! ### The event of a group that only overwrites -/

/-- Which event the group raises is fixed by its operands. -/
theorem groupEvent_eq_of_onlyOverwrites {i : Instr} (ho : onlyOverwrites i = true) (s t : State) :
    groupEvent s i = groupEvent t i := by
  cases i with
  | group0A | group0B | group1A | group1B | group3A | group4A | group14A | group14B | group15B => rfl
  | _ => cases ho

/-- Nothing of the group stands behind its event point (60_exceptions.md R362). -/
theorem groupEvent_rest_of_onlyOverwrites {i : Instr} (ho : onlyOverwrites i = true) {s : State} {p : Pending}
    (h : groupEvent s i = some p) : p.rest = .nothing := by
  cases i with
  | group0A | group3A => cases h; rfl
  | group14A h tpon var payload pion =>
    obtain ⟨_, -, rfl⟩ := Option.map_eq_some_iff.1 h
    rfl
  | group0B | group1A | group1B | group4A | group14B | group15B => cases h
  | _ => cases ho

/-- An event with nothing behind it, acknowledged, leaves the block as it was raised on. -/
theorem settled_raiseEvent {e : Option Pending} {s : State} (hidle : s.pending = none)
    (he : ∀ p, e = some p → p.rest = .nothing) : settled (raiseEvent e s) = s := by
  cases e with
  | none =>
    unfold raiseEvent settled
    rw [hidle]
  | some p =>
    unfold raiseEvent
    rw [settled_emit _ _ _ _ _ _ hidle, he p rfl]
    rfl

/-- No group's writes touch the latch (60_exceptions.md R358). -/
@[simp] theorem groupWrites_pending (s : State) (i : Instr) : (groupWrites s i).pending = s.pending := by
  by_cases h4 : IsClockGroup i
  · obtain ⟨h, mjd, hour, minute, tzSign, tzMag, rfl⟩ := h4
    simp only [groupWrites]
    split <;> simp
  · exact (congrArg (fun x : State => x.pending) (groupWrites_frame h4 s) :)

theorem isGroup_of_onlyOverwrites {i : Instr} (ho : onlyOverwrites i = true) : isGroup i = true := by
  cases i with
  | group0A | group0B | group1A | group1B | group3A | group4A | group14A | group14B | group15B => rfl
  | _ => cases ho

/-- A group that only overwrites, acknowledged, leaves its writes and no more. -/
theorem settled_of_onlyOverwrites {i : Instr} {s t : State} (ho : onlyOverwrites i = true) (h : exec i s = .next t) :
    settled t = groupWrites s i := by
  obtain ⟨hidle, rfl⟩ := exec_group_next (isGroup_of_onlyOverwrites ho) h
  exact settled_raiseEvent (by rw [groupWrites_pending, hidle]) fun _ => groupEvent_rest_of_onlyOverwrites ho

/-! ### The statement -/

/-- Settles O36: the second copy ends in the very state the first one ended in, event included. -/
theorem repeatedOverwritingGroupLeavesTheSameState : Obligations.RepeatedOverwritingGroupLeavesTheSameState := by
  intro i s t ho hs hidle h
  have hg := isGroup_of_onlyOverwrites ho
  obtain ⟨-, ht⟩ := exec_group_next hg h
  have hagain : exec i (settled t) = .next t := by
    rw [settled_of_onlyOverwrites ho h, exec_group hg, whenIdle_idle _ (by rw [groupWrites_pending, hidle]),
      groupWrites_groupWrites ho hs, groupEvent_eq_of_onlyOverwrites ho _ s, ← ht]
  exact ⟨t, hagain, rfl, rfl⟩

end Sys2Proof.Machine

/-! # Proofs of the statements about encoding (30_encoding.md)

A format is a concatenation of fields and of ignored bits, and both directions are read off it in the order the encoder
writes. What the encoder wrote is read back field by field (`encodedGroup`), and for a command no bit stands outside the
operands (`FitsMask`). What the decoder reads from a word is, written again, that word under the mask of its fields
(`KeepsBits`); the mask is put together along with them. -/

namespace Sys2Proof.Machine

/-! ### Fields of a concatenation -/

theorem getLsbD_append_of_lt {m n i : Nat} {x : BitVec m} {y : BitVec n} (h : i < n) :
    (x ++ y).getLsbD i = y.getLsbD i := by
  rw [BitVec.getLsbD_append, if_pos h]

theorem getLsbD_append_of_le {m n i : Nat} {x : BitVec m} {y : BitVec n} (h : n ≤ i) :
    (x ++ y).getLsbD i = x.getLsbD (i - n) := by
  rw [BitVec.getLsbD_append, if_neg (Nat.not_lt.2 h)]

theorem getLsbD_zero_ofBool (b : Bool) : (BitVec.ofBool b).getLsbD 0 = b := by
  cases b <;> rfl

/-- A field of a field is a field of the word. -/
theorem extractLsb'_extractLsb' {w k s t n : Nat} (x : BitVec w) (h : s + n ≤ k) :
    (x.extractLsb' t k).extractLsb' s n = x.extractLsb' (t + s) n := by
  ext i hi
  have hk : s + i < k := by omega
  simp [hk, Nat.add_assoc]

theorem getLsbD_extractLsb'_of_lt {w k s t : Nat} (x : BitVec w) (h : s < k) :
    (x.extractLsb' t k).getLsbD s = x.getLsbD (t + s) := by
  simp [h]

theorem ofBool_getLsbD {w : Nat} (x : BitVec w) (s : Nat) : BitVec.ofBool (x.getLsbD s) = x.extractLsb' s 1 := by
  ext i hi
  obtain rfl : i = 0 := by omega
  simp

/-! ### What a concatenation of fields keeps of a word -/

/-- `v` is the field of `x` from bit `s` on, with the bits outside `mask` cleared. A field and a flag of `x` are kept
whole, a gap of zeros not at all, and a concatenation is kept as its parts are. -/
def KeepsBits {w n : Nat} (x : BitVec w) (s : Nat) (v mask : BitVec n) : Prop :=
  v = x.extractLsb' s n &&& mask

section
variable {w n m s : Nat} {x : BitVec w}

theorem KeepsBits.field : KeepsBits x s (x.extractLsb' s n) (BitVec.allOnes n) :=
  BitVec.and_allOnes.symm

theorem KeepsBits.whole : KeepsBits x 0 x (BitVec.allOnes w) := by
  rw [KeepsBits, BitVec.extractLsb'_eq_self, BitVec.and_allOnes]

theorem KeepsBits.flag : KeepsBits x s (BitVec.ofBool (x.getLsbD s)) (BitVec.allOnes 1) := by
  rw [ofBool_getLsbD]
  exact .field

theorem KeepsBits.gap : KeepsBits x s 0#n 0#n :=
  BitVec.and_zero.symm

theorem KeepsBits.append {hi p : BitVec n} {lo q : BitVec m} (hhi : KeepsBits x (s + m) hi p)
    (hlo : KeepsBits x s lo q) : KeepsBits x s (hi ++ lo) (p ++ q) := by
  unfold KeepsBits at *
  rw [hhi, hlo, ← BitVec.and_append, BitVec.extractLsb'_append_extractLsb'_eq_extractLsb' rfl]

/-- What is kept of a field is kept of the word. -/
theorem KeepsBits.of_field {k t : Nat} {v mask : BitVec n} (hv : KeepsBits (x.extractLsb' t k) s v mask)
    (h : s + n ≤ k) : KeepsBits x (t + s) v mask := by
  rwa [KeepsBits, extractLsb'_extractLsb' x h] at hv

theorem KeepsBits.eq_and {v mask : BitVec w} (h : KeepsBits x 0 v mask) : v = x &&& mask := by
  rwa [KeepsBits, BitVec.extractLsb'_eq_self] at h

end

/-! ### The group word taken apart -/

theorem groupOfWord_append (a b c d : Block) : groupOfWord (a ++ b ++ c ++ d) = ⟨a, b, c, d⟩ := by
  simp (disch := omega) only [groupOfWord, BitVec.extractLsb'_append_eq_of_le,
    BitVec.extractLsb'_append_eq_of_add_le, Nat.reduceSub, BitVec.extractLsb'_eq_self]

/-- The blocks of the group word the encoder writes (30_encoding.md R100, R101). -/
def encodedGroup (code : BitVec 5) (h : Head) (sub : BitVec 5) (c d : Block) : Group :=
  ⟨h.pi, code ++ BitVec.ofBool h.tp ++ h.pty ++ sub, c, d⟩

section
variable (code : BitVec 5) (h : Head) (sub : BitVec 5) (c d : Block)

@[simp] theorem encodedGroup_c : (encodedGroup code h sub c d).c = c := rfl
@[simp] theorem encodedGroup_d : (encodedGroup code h sub c d).d = d := rfl

@[simp] theorem groupCode_encodedGroup : groupCode (encodedGroup code h sub c d) = code := by
  simp (disch := omega) only [groupCode, encodedGroup, BitVec.extractLsb'_append_eq_of_le, Nat.reduceSub,
    BitVec.extractLsb'_eq_self]

@[simp] theorem groupHead_encodedGroup : groupHead (encodedGroup code h sub c d) = h := by
  simp (disch := omega) only [groupHead, encodedGroup, BitVec.extractLsb'_append_eq_of_le,
    BitVec.extractLsb'_append_eq_of_add_le, getLsbD_append_of_le, getLsbD_append_of_lt, getLsbD_zero_ofBool,
    Nat.reduceSub, BitVec.extractLsb'_eq_self]

@[simp] theorem groupSub_encodedGroup : groupSub (encodedGroup code h sub c d) = sub :=
  BitVec.extractLsb'_append_eq_right

@[simp] theorem encodedGroup_b_extractLsb' {n : Nat} (hn : n ≤ 5) :
    (encodedGroup code h sub c d).b.extractLsb' 0 n = sub.extractLsb' 0 n :=
  BitVec.extractLsb'_append_eq_of_add_le (by omega)

@[simp] theorem encodedGroup_b_getLsbD {i : Nat} (hi : i < 5) :
    (encodedGroup code h sub c d).b.getLsbD i = sub.getLsbD i :=
  getLsbD_append_of_lt hi

end

/-! ### Decoding what the encoder wrote: the formats of the group port -/

@[simp] theorem hiChar_append (x y : Byte) : hiChar (x ++ y) = x := BitVec.extractLsb'_append_eq_left
@[simp] theorem loChar_append (x y : Byte) : loChar (x ++ y) = y := BitVec.extractLsb'_append_eq_right

section
variable {code : BitVec 5} {h : Head} {c d : Block}

/-- Format BASIC (30_encoding.md R104). -/
@[simp] theorem groupBasic_encodedGroup (b : Basic) : groupBasic (encodedGroup code h (basicSub b) c d) = b := by
  simp (disch := omega) only [groupBasic, encodedGroup_b_getLsbD, encodedGroup_b_extractLsb', basicSub,
    BitVec.extractLsb'_append_eq_of_add_le, getLsbD_append_of_le, getLsbD_append_of_lt, getLsbD_zero_ofBool,
    Nat.reduceSub, BitVec.extractLsb'_eq_self]

/-- Format SLOW (30_encoding.md R105). -/
theorem decodeSlow_encodedGroup (la : Bool) (var : BitVec 3) (payload : BitVec 12) (sub : BitVec 5) :
    decodeSlow (encodedGroup code h sub (BitVec.ofBool la ++ var ++ payload) d) = .group1A h la var payload d := by
  simp (disch := omega) only [decodeSlow, groupHead_encodedGroup, encodedGroup_c, encodedGroup_d,
    BitVec.extractLsb'_append_eq_of_le, BitVec.extractLsb'_append_eq_of_add_le, getLsbD_append_of_le,
    getLsbD_zero_ofBool, Nat.reduceSub, BitVec.extractLsb'_eq_self]

/-- A flag above a field, as in formats RT and EON (30_encoding.md R107, R112). -/
theorem flag_of_encodedGroup (flag : Bool) (x : BitVec 4) :
    (encodedGroup code h (BitVec.ofBool flag ++ x) c d).b.getLsbD 4 = flag ∧
      (encodedGroup code h (BitVec.ofBool flag ++ x) c d).b.extractLsb' 0 4 = x := by
  simp (disch := omega) only [encodedGroup_b_getLsbD, encodedGroup_b_extractLsb', getLsbD_append_of_le,
    BitVec.extractLsb'_append_eq_right, getLsbD_zero_ofBool, Nat.reduceSub, and_self]

/-- Format RT, type 2A (30_encoding.md R107). -/
theorem decodeRt4_encodedGroup (tog : Bool) (seg : BitVec 4) (ch0 ch1 ch2 ch3 : Byte) :
    decodeRt4 (encodedGroup code h (BitVec.ofBool tog ++ seg) (ch0 ++ ch1) (ch2 ++ ch3)) =
      .group2A h tog seg ch0 ch1 ch2 ch3 := by
  obtain ⟨htog, hseg⟩ := flag_of_encodedGroup (code := code) (h := h) (c := ch0 ++ ch1) (d := ch2 ++ ch3) tog seg
  simp only [decodeRt4, htog, hseg, groupHead_encodedGroup, encodedGroup_c, encodedGroup_d, hiChar_append,
    loChar_append]

/-- Format RT, type 2B (30_encoding.md R107). -/
theorem decodeRt2_encodedGroup (tog : Bool) (seg : BitVec 4) (ch0 ch1 : Byte) :
    decodeRt2 (encodedGroup code h (BitVec.ofBool tog ++ seg) c (ch0 ++ ch1)) = .group2B h tog seg ch0 ch1 := by
  obtain ⟨htog, hseg⟩ := flag_of_encodedGroup (code := code) (h := h) (c := c) (d := ch0 ++ ch1) tog seg
  simp only [decodeRt2, htog, hseg, groupHead_encodedGroup, encodedGroup_d, hiChar_append, loChar_append]

/-- Format EON (30_encoding.md R112). -/
theorem decodeEon_encodedGroup (tpon : Bool) (var : BitVec 4) :
    decodeEon (encodedGroup code h (BitVec.ofBool tpon ++ var) c d) = .group14A h tpon var c d := by
  obtain ⟨htpon, hvar⟩ := flag_of_encodedGroup (code := code) (h := h) (c := c) (d := d) tpon var
  simp only [decodeEon, htpon, hvar, groupHead_encodedGroup, encodedGroup_c, encodedGroup_d]

/-- Format CT (30_encoding.md R110, R115). -/
theorem decodeCt_encodedGroup (mjd : BitVec 17) (hour : BitVec 5) (minute : BitVec 6) (tzSign : Bool)
    (tzMag : BitVec 5) :
    decodeCt (encodedGroup code h (0#3 ++ mjd.extractLsb' 15 2) (mjd.extractLsb' 0 15 ++ hour.extractLsb' 4 1)
      (hour.extractLsb' 0 4 ++ minute ++ BitVec.ofBool tzSign ++ tzMag)) =
      .group4A h mjd hour minute tzSign tzMag := by
  have hmjd : mjd.extractLsb' 15 2 ++ mjd.extractLsb' 0 15 = mjd :=
    BitVec.extractLsb'_append_extractLsb' (w := 2) (len := 15)
  have hhour : hour.extractLsb' 4 1 ++ hour.extractLsb' 0 4 = hour :=
    BitVec.extractLsb'_append_extractLsb' (w := 1) (len := 4)
  simp (disch := omega) only [decodeCt, groupHead_encodedGroup, encodedGroup_b_extractLsb', encodedGroup_c,
    encodedGroup_d, BitVec.extractLsb'_append_eq_of_le, BitVec.extractLsb'_append_eq_of_add_le, getLsbD_append_of_le,
    getLsbD_append_of_lt, getLsbD_zero_ofBool, Nat.reduceSub, BitVec.extractLsb'_eq_self, hmjd, hhour]

/-- Format PTYN (30_encoding.md R111). -/
theorem decodePtyn_encodedGroup (tog : Bool) (seg : BitVec 1) (ch0 ch1 ch2 ch3 : Byte) :
    decodePtyn (encodedGroup code h (BitVec.ofBool tog ++ 0#3 ++ seg) (ch0 ++ ch1) (ch2 ++ ch3)) =
      .group10A h tog seg ch0 ch1 ch2 ch3 := by
  simp (disch := omega) only [decodePtyn, groupHead_encodedGroup, encodedGroup_b_getLsbD, encodedGroup_b_extractLsb',
    encodedGroup_c, encodedGroup_d, hiChar_append, loChar_append, BitVec.extractLsb'_append_eq_of_add_le,
    getLsbD_append_of_le, getLsbD_zero_ofBool, Nat.reduceSub, BitVec.extractLsb'_eq_self]

/-- Format EONB (30_encoding.md R113). -/
theorem decodeEonB_encodedGroup (tpon taon : Bool) :
    decodeEonB (encodedGroup code h (BitVec.ofBool tpon ++ BitVec.ofBool taon ++ 0#3) c d) =
      .group14B h tpon taon d := by
  simp (disch := omega) only [decodeEonB, groupHead_encodedGroup, encodedGroup_b_getLsbD, encodedGroup_d,
    getLsbD_append_of_le, getLsbD_append_of_lt, getLsbD_zero_ofBool, Nat.reduceSub]

end

/-- The encoder's group word decodes by its blocks. -/
theorem decode_groupWord {code : BitVec 5} {h : Head} {sub : BitVec 5} {c d : Block} {i : Instr}
    (hi : ∀ w, groupOfWord w = encodedGroup code h sub c d → decodeGroup w = i) :
    decode (groupWord code h sub c d) = .ok i :=
  congrArg Except.ok (hi _ (groupOfWord_append _ _ _ _))

/-- The format of each code reads back what the encoder composed by it. -/
theorem decode_encode_group {i : Instr} (hi : isGroup i = true) : decode (encode i) = .ok i := by
  cases i with
  | reset | qStatus | qText | qTime | evCfg | cDecrypt | cDecryptX | cLookup | uClear | uLoad | uGlue | uFlt
  | uRestart | uSetCur | uRead | uLabel | tClass3A | tClass8A => cases hi
  | group1A => exact decode_groupWord fun w hw => by simp [decodeGroup, hw, decodeSlow_encodedGroup]
  | group2A => exact decode_groupWord fun w hw => by simp [decodeGroup, hw, decodeRt4_encodedGroup]
  | group2B => exact decode_groupWord fun w hw => by simp [decodeGroup, hw, decodeRt2_encodedGroup]
  | group4A => exact decode_groupWord fun w hw => by simp [decodeGroup, hw, decodeCt_encodedGroup]
  | group10A => exact decode_groupWord fun w hw => by simp [decodeGroup, hw, decodePtyn_encodedGroup]
  | group14A => exact decode_groupWord fun w hw => by simp [decodeGroup, hw, decodeEon_encodedGroup]
  | group14B => exact decode_groupWord fun w hw => by simp [decodeGroup, hw, decodeEonB_encodedGroup]
  | _ => exact decode_groupWord fun w hw => by simp [decodeGroup, hw]

/-! ### Decoding what the encoder wrote: the command port -/

/-- No bit of `v` stands outside `mask`: what the decoder's operand check asks of a command word. -/
def FitsMask {n : Nat} (v mask : BitVec n) : Prop := v &&& ~~~mask = 0#n

section
variable {n m : Nat}

theorem FitsMask.field {v : BitVec n} : FitsMask v (BitVec.allOnes n) := by
  simp [FitsMask]

theorem FitsMask.gap : FitsMask 0#n 0#n :=
  BitVec.zero_and

theorem FitsMask.append {hi p : BitVec n} {lo q : BitVec m} (hhi : FitsMask hi p) (hlo : FitsMask lo q) :
    FitsMask (hi ++ lo) (p ++ q) := by
  unfold FitsMask at *
  rw [BitVec.not_append, BitVec.and_append, hhi, hlo, BitVec.zero_append_zero]

/-- A value that fits a mask is left as it is by it. -/
theorem FitsMask.and_eq {v mask : BitVec n} (h : FitsMask v mask) : v &&& mask = v := by
  ext i hi
  have hbit : (v &&& ~~~mask)[i] = false := by
    rw [h, BitVec.getElem_zero]
  simpa using hbit

end

theorem commandCode_append (operands : BitVec 40) (code : BitVec 8) : commandCode (operands ++ code) = code :=
  BitVec.extractLsb'_append_eq_right

/-- The encoder's command word decodes when its operands fit the bits its code uses and the decoder reads them back. -/
theorem decode_commandWord {code : BitVec 8} {operands mask : BitVec 40} {i : Instr} (hfits : FitsMask operands mask)
    (hread : decodeCommand (operands ++ code) = operandsWithin (mask ++ BitVec.allOnes 8) (operands ++ code) i) :
    decode (commandWord code operands) = .ok i :=
  hread.trans (if_pos (hfits.append .field))

/-- The layout of each command's operands (log 3), the highest first: the code's used bits, and where the decoder reads
the operands back. -/
theorem decode_encode_command {i : Instr} (hi : isGroup i = false) : decode (encode i) = .ok i := by
  cases i
  case group0A | group0B | group1A | group1B | group2A | group2B | group3A | group3B | group4A | group4B | group5A
    | group5B | group6A | group6B | group7A | group7B | group8A | group8B | group9A | group9B | group10A | group10B
    | group11A | group11B | group12A | group12B | group13A | group13B | group14A | group14B | group15A | group15B =>
    cases hi
  case' reset | qStatus | qTime | uClear | uGlue | uRestart | uLabel => refine decode_commandWord .gap ?_
  case' qText | evCfg | uFlt | uSetCur | uRead | tClass3A => refine decode_commandWord (.append .gap .field) ?_
  case' cDecrypt => refine decode_commandWord (.append (.append .gap .field) .field) ?_
  case' cDecryptX =>
    refine decode_commandWord (.append (.append (.append (.append (.append .gap .field) .gap) .field) .field) .field) ?_
  case' cLookup =>
    refine decode_commandWord (.append (.append (.append (.append (.append .gap .field) .gap) .field) .gap) .field) ?_
  case' uLoad => refine decode_commandWord (.append (.append (.append .gap .field) .gap) .field) ?_
  case' tClass8A => refine decode_commandWord (.append (.append (.append .field .field) .gap) .field) ?_
  all_goals
    simp (disch := omega) only [decodeCommand, commandCode_append, BitVec.extractLsb'_append_eq_of_le,
      BitVec.extractLsb'_append_eq_of_add_le, getLsbD_append_of_le, getLsbD_append_of_lt, getLsbD_zero_ofBool,
      Nat.reduceSub, BitVec.extractLsb'_eq_self]
    rfl

/-! ### Encoding what the decoder reads: the command port -/

/-- The encoder's command word on fields of `w` is `w` under the mask of these fields. -/
theorem commandWord_of_keepsBits {w used : BitVec 48} {code : BitVec 8} {operands mask : BitVec 40}
    (hcode : (commandCode w).toNat = code.toNat) (hkeeps : KeepsBits w 8 operands mask)
    (hused : used = mask ++ BitVec.allOnes 8) : commandWord code operands = .command (w &&& used) := by
  obtain rfl : commandCode w = code := BitVec.eq_of_toNat_eq hcode
  rw [hused]
  exact congrArg PortWord.command (hkeeps.append (lo := commandCode w) .field).eq_and

/-- The 18 command codes (30_encoding.md R128). -/
def commandCodes : List Nat :=
  [0x00, 0x01, 0x02, 0x03, 0x04, 0x10, 0x11, 0x12, 0x20, 0x21, 0x22, 0x23, 0x24, 0x25, 0x26, 0x27, 0x30, 0x31]

/-- A word with a known code goes through the operand check, and the operation read from it encodes to its used bits:
the layouts of `decode_encode_command`, in the order of the decoder's lines. -/
theorem decodeCommand_of_mem {w : BitVec 48} (hk : (commandCode w).toNat ∈ commandCodes) :
    ∃ used i, decodeCommand w = operandsWithin used w i ∧ encode i = .command (w &&& used) := by
  unfold decodeCommand
  split
  case h_19 => simp_all [commandCodes]
  all_goals
    rename_i hcode
    refine ⟨_, _, rfl, ?_⟩
  case' h_1 | h_2 | h_4 | h_9 | h_11 | h_13 | h_16 => refine commandWord_of_keepsBits hcode .gap ?_
  case' h_3 | h_5 | h_12 | h_14 | h_15 | h_17 => refine commandWord_of_keepsBits hcode (.append .gap .field) ?_
  case' h_6 => refine commandWord_of_keepsBits hcode (.append (.append .gap .field) .field) ?_
  case' h_7 =>
    refine commandWord_of_keepsBits hcode
      (.append (.append (.append (.append (.append .gap .field) .gap) .field) .field) .field) ?_
  case' h_8 =>
    refine commandWord_of_keepsBits hcode
      (.append (.append (.append (.append (.append .gap .field) .gap) .field) .gap) .flag) ?_
  case' h_10 => refine commandWord_of_keepsBits hcode (.append (.append (.append .gap .field) .gap) .field) ?_
  case' h_18 => refine commandWord_of_keepsBits hcode (.append (.append (.append .field .field) .gap) .field) ?_
  all_goals rfl

/-- A word with any other code is refused by name (30_encoding.md R128). -/
theorem decodeCommand_of_not_mem {w : BitVec 48} (hk : (commandCode w).toNat ∉ commandCodes) :
    decodeCommand w = .error (.unknownCommand (commandCode w)) := by
  unfold decodeCommand
  split
  case h_19 => rfl
  all_goals
    rename_i hcode
    exact absurd (by rw [hcode]; decide) hk

theorem operandsWithin_cases (used w : BitVec 48) (i : Instr) :
    operandsWithin used w i = .ok i ∧ FitsMask w used ∨ operandsWithin used w i = .error .operandTooWide := by
  unfold operandsWithin
  split
  · exact .inl ⟨rfl, ‹_›⟩
  · exact .inr rfl

/-- The decoder accepts a command word only as an encoding. -/
theorem encode_of_decodeCommand {w : BitVec 48} {i : Instr} (h : decodeCommand w = .ok i) : encode i = .command w := by
  by_cases hk : (commandCode w).toNat ∈ commandCodes
  · obtain ⟨used, j, hdec, henc⟩ := decodeCommand_of_mem hk
    rw [hdec] at h
    obtain rfl := operandsWithin_ok h
    obtain ⟨-, hw⟩ | he := operandsWithin_cases used w i
    · rw [henc, hw.and_eq]
    · cases h.symm.trans he
  · cases h.symm.trans (decodeCommand_of_not_mem hk)

/-! ### Decoding a group word: every field at its bits -/

section
variable (w : BitVec 64)

theorem groupOfWord_b : (groupOfWord w).b = w.extractLsb' 32 16 := rfl
theorem groupOfWord_c : (groupOfWord w).c = w.extractLsb' 16 16 := rfl
theorem groupOfWord_d : (groupOfWord w).d = w.extractLsb' 0 16 := rfl

theorem groupCode_groupOfWord : groupCode (groupOfWord w) = w.extractLsb' 43 5 := extractLsb'_extractLsb' w (by omega)

theorem groupSub_groupOfWord : groupSub (groupOfWord w) = w.extractLsb' 32 5 := extractLsb'_extractLsb' w (by omega)

theorem groupHead_groupOfWord :
    groupHead (groupOfWord w) = ⟨w.extractLsb' 48 16, w.getLsbD 42, w.extractLsb' 37 5⟩ := by
  simp (disch := omega) only [groupHead, groupOfWord, extractLsb'_extractLsb', getLsbD_extractLsb'_of_lt, Nat.reduceAdd]

theorem groupBasic_groupOfWord :
    groupBasic (groupOfWord w) = ⟨w.getLsbD 36, w.getLsbD 35, w.getLsbD 34, w.extractLsb' 32 2⟩ := by
  simp (disch := omega) only [groupBasic, groupOfWord_b, extractLsb'_extractLsb', getLsbD_extractLsb'_of_lt,
    Nat.reduceAdd]

/-- The hour of format CT lies across blocks C and D (30_encoding.md R115). -/
theorem hour_of_word : w.extractLsb' 16 1 ++ w.extractLsb' 12 4 = w.extractLsb' 12 5 :=
  BitVec.extractLsb'_append_extractLsb'_eq_extractLsb' rfl

end

/-! ### Encoding what the decoder reads: the group port -/

/-- The encoder's group word on fields of the blocks of `w` is `w` under the mask of these fields. -/
theorem groupWord_of_keepsBits {w : BitVec 64} {code sub subMask : BitVec 5} {c d cMask dMask : Block}
    (hcode : (groupCode (groupOfWord w)).toNat = code.toNat) (hsub : KeepsBits (groupOfWord w).b 0 sub subMask)
    (hc : KeepsBits (groupOfWord w).c 0 c cMask) (hd : KeepsBits (groupOfWord w).d 0 d dMask)
    (hused : usedBits code.toNat = BitVec.allOnes 16 ++
      (BitVec.allOnes 5 ++ BitVec.allOnes 1 ++ BitVec.allOnes 5 ++ subMask) ++ cMask ++ dMask) :
    groupWord code (groupHead (groupOfWord w)) sub c d = .group (w &&& usedBits (w.extractLsb' 43 5).toNat) := by
  obtain rfl : groupCode (groupOfWord w) = code := BitVec.eq_of_toNat_eq hcode
  have hb : KeepsBits (groupOfWord w).b 0
      (groupCode (groupOfWord w) ++ BitVec.ofBool (groupHead (groupOfWord w)).tp ++ (groupHead (groupOfWord w)).pty ++
        sub)
      (BitVec.allOnes 5 ++ BitVec.allOnes 1 ++ BitVec.allOnes 5 ++ subMask) :=
    .append (.append (.append .field .flag) .field) hsub
  have ha : KeepsBits w 48 (groupOfWord w).a (BitVec.allOnes 16) := .field
  have hab := ha.append (s := 32) (hb.of_field (by omega))
  have habc := hab.append (s := 16) (hc.of_field (by omega))
  have habcd := habc.append (s := 0) (hd.of_field (by omega))
  rw [← groupCode_groupOfWord, hused]
  exact congrArg PortWord.group habcd.eq_and

/-! What each format of 30_encoding.md R104 to R113 keeps of the blocks. -/

/-- Two characters of a block (20_memory.md R73). -/
theorem KeepsBits.chars (x : Block) : KeepsBits x 0 (hiChar x ++ loChar x) (BitVec.allOnes 8 ++ BitVec.allOnes 8) :=
  .append .field .field

section
variable (g : Group)

/-- Format BASIC (R104). -/
theorem KeepsBits.basic : KeepsBits g.b 0 (basicSub (groupBasic g))
    (BitVec.allOnes 1 ++ BitVec.allOnes 1 ++ BitVec.allOnes 1 ++ BitVec.allOnes 2) :=
  .append (.append (.append .flag .flag) .flag) .field

/-- Format SLOW (R105): what the encoder writes into block C. -/
theorem KeepsBits.slow :
    KeepsBits g.c 0 (BitVec.ofBool (g.c.getLsbD 15) ++ g.c.extractLsb' 12 3 ++ g.c.extractLsb' 0 12)
      (BitVec.allOnes 1 ++ BitVec.allOnes 3 ++ BitVec.allOnes 12) :=
  .append (.append .flag .field) .field

/-- Formats RT and EON (R107, R112): a flag above a field of four bits. -/
theorem KeepsBits.flagged : KeepsBits g.b 0 (BitVec.ofBool (g.b.getLsbD 4) ++ g.b.extractLsb' 0 4)
    (BitVec.allOnes 1 ++ BitVec.allOnes 4) :=
  .append .flag .field

/-- Format PTYN (R111). -/
theorem KeepsBits.ptyn : KeepsBits g.b 0 (BitVec.ofBool (g.b.getLsbD 4) ++ 0#3 ++ g.b.extractLsb' 0 1)
    (BitVec.allOnes 1 ++ 0#3 ++ BitVec.allOnes 1) :=
  .append (.append .flag .gap) .field

/-- Format EONB (R113). -/
theorem KeepsBits.eonB : KeepsBits g.b 0 (BitVec.ofBool (g.b.getLsbD 4) ++ BitVec.ofBool (g.b.getLsbD 3) ++ 0#3)
    (BitVec.allOnes 1 ++ BitVec.allOnes 1 ++ 0#3) :=
  .append (.append .flag .flag) .gap

/-- Format CT (R110): block C holds the low bits of the date above the high bit of the hour. -/
theorem KeepsBits.ctC : KeepsBits g.c 0 (g.c.extractLsb' 1 15 ++ g.c.extractLsb' 0 1)
    (BitVec.allOnes 15 ++ BitVec.allOnes 1) :=
  .append .field .field

/-- Format CT (R110): block D holds the rest of the hour, the minute and the offset. -/
theorem KeepsBits.ctD :
    KeepsBits g.d 0
      (g.d.extractLsb' 12 4 ++ g.d.extractLsb' 6 6 ++ BitVec.ofBool (g.d.getLsbD 5) ++ g.d.extractLsb' 0 5)
      (BitVec.allOnes 4 ++ BitVec.allOnes 6 ++ BitVec.allOnes 1 ++ BitVec.allOnes 5) :=
  .append (.append (.append .field .field) .flag) .field

/-- The encoder cuts date and hour of format CT where the decoder joined them (R110, R115). -/
theorem encode_decodeCt : encode (decodeCt g) =
    groupWord 8 (groupHead g) (0#3 ++ g.b.extractLsb' 0 2) (g.c.extractLsb' 1 15 ++ g.c.extractLsb' 0 1)
      (g.d.extractLsb' 12 4 ++ g.d.extractLsb' 6 6 ++ BitVec.ofBool (g.d.getLsbD 5) ++ g.d.extractLsb' 0 5) := by
  simp (disch := omega) only [decodeCt, encode, BitVec.extractLsb'_append_eq_of_le,
    BitVec.extractLsb'_append_eq_of_add_le, Nat.reduceSub, BitVec.extractLsb'_eq_self]

end

/-! ### The statements -/

/-- Settles O1: a group by its format's fields, a command by its operands' layout. -/
theorem decodeOfEncodeIsTheInstruction : Obligations.DecodeOfEncodeIsTheInstruction := by
  intro i
  cases hport : isGroup i with
  | true => exact decode_encode_group hport
  | false => exact decode_encode_command hport

/-- Settles O2: each line of the decoder keeps the fields of its format, and their masks make up the format's used bits.
Case `h_1` is the line of code 0, `h_2` of code 1, and so on; the last line takes what is left, code 31. -/
theorem groupWordsKeepTheirUsedBits : Obligations.GroupWordsKeepTheirUsedBits := by
  intro w
  unfold decodeGroup
  dsimp only
  split
  case' h_32 =>
    have hcode : (groupCode (groupOfWord w)).toNat = 31 := by
      simp only [imp_false] at *
      have hlt := (groupCode (groupOfWord w)).isLt
      omega
  all_goals rename_i hcode
  case' h_1 => refine groupWord_of_keepsBits hcode (.basic _) .whole (.chars _) ?_
  case' h_2 => refine groupWord_of_keepsBits hcode (.basic _) .gap (.chars _) ?_
  case' h_32 => refine groupWord_of_keepsBits hcode (.basic _) .gap .gap ?_
  case' h_3 => refine groupWord_of_keepsBits hcode .gap (.slow _) .whole ?_
  case' h_4 => refine groupWord_of_keepsBits hcode .gap .gap .whole ?_
  case' h_5 => refine groupWord_of_keepsBits hcode (.flagged _) (.chars _) (.chars _) ?_
  case' h_6 => refine groupWord_of_keepsBits hcode (.flagged _) .gap (.chars _) ?_
  case' h_9 =>
    rw [encode_decodeCt]
    refine groupWord_of_keepsBits hcode (.append .gap .field) (.ctC _) (.ctD _) ?_
  case' h_21 => refine groupWord_of_keepsBits hcode (.ptyn _) (.chars _) (.chars _) ?_
  case' h_29 => refine groupWord_of_keepsBits hcode (.flagged _) .whole .whole ?_
  case' h_30 => refine groupWord_of_keepsBits hcode (.eonB _) .gap .whole ?_
  case' h_7 | h_11 | h_13 | h_17 | h_23 | h_25 => refine groupWord_of_keepsBits hcode .field .whole .whole ?_
  case' h_8 | h_10 | h_12 | h_14 | h_16 | h_18 | h_20 | h_22 | h_24 | h_26 | h_28 =>
    refine groupWord_of_keepsBits hcode .field .gap .whole ?_
  case' h_15 | h_19 | h_27 | h_31 => refine groupWord_of_keepsBits hcode .gap .gap .gap ?_
  all_goals rfl

/-- Settles O3: the code picks the decoder's line, and a field of a block is the field of the word at the block's
offset. -/
theorem groupFormatsNameTheirBits : Obligations.GroupFormatsNameTheirBits := by
  intro w h code
  have hcode : (groupCode (groupOfWord w)).toNat = code := congrArg BitVec.toNat (groupCode_groupOfWord w)
  have hhead : groupHead (groupOfWord w) = h := groupHead_groupOfWord w
  and_intros
  all_goals
    intro hk
    rw [hk] at hcode
    simp (disch := omega) only [decodeGroup, hcode, hhead, groupSub_groupOfWord, groupBasic_groupOfWord, decodeSlow,
      decodeRt4, decodeRt2, decodeCt, decodePtyn, decodeEon, decodeEonB, groupOfWord_b, groupOfWord_c, groupOfWord_d,
      hiChar, loChar, extractLsb'_extractLsb', getLsbD_extractLsb'_of_lt, Nat.reduceAdd, hour_of_word]

/-- Settles O4: acceptance is O1 one way and the operand check the other; the refusals go by the code. -/
theorem commandWordAcceptedExactlyWhenItIsAnEncoding :
    Obligations.CommandWordAcceptedExactlyWhenItIsAnEncoding := by
  intro w
  refine ⟨fun i => ⟨encode_of_decodeCommand, fun h => ?_⟩, decodeCommand_of_not_mem, fun hk => ?_⟩
  · rw [← h]
    exact decodeOfEncodeIsTheInstruction i
  · obtain ⟨used, i, hdec, -⟩ := decodeCommand_of_mem hk
    change (∃ i, decodeCommand w = .ok i) ∨ decodeCommand w = .error .operandTooWide
    rw [hdec]
    exact (operandsWithin_cases used w i).imp_left fun ⟨hok, _⟩ => ⟨i, hok⟩

end Sys2Proof.Machine

/-! # Proofs of the statements about the basic group types (40_dispatch_basic.md)

Three layers stand before the statements. `SameOutside` follows the updates an operation is made of and adds up the
registers they write (R141). `dateYp_dayOfYear_iff` inverts R162's quotients: an MJD is a year that begins on 1 March
and a day within it, so the date's ranges and its steps from day to day become linear. `exec_group4A_nonzero` and
`clockUpdate_time` say what a 4A group decodes. -/

namespace Sys2Proof.Machine

/-! ### The shared updates, read back -/

/-- Two characters written to a segment (41_text_reassembly.md R180). -/
theorem read_segWrite_pair (sp : Space) (seg : Nat) (b0 b1 : Byte) (m : Memory) (a : Nat) :
    Memory.read sp (segWrite sp seg [b0, b1] m) a =
      if a = 2 * seg then b0 else if a = 2 * seg + 1 then b1 else Memory.read sp m a := by
  rw [read_segWrite]
  by_cases h0 : a = 2 * seg
  · simp [h0]
  by_cases h1 : a = 2 * seg + 1
  · simp [h1]
  · rw [if_neg h0, if_neg h1]
    exact if_neg (by simp only [List.length_cons, List.length_nil]; omega)

/-- An event with nothing behind it fills the latch when its kind is enabled, and does no more
(60_exceptions.md R358). -/
theorem emit_nothing (k : EventKind) (n : BitVec 8) (f : Bool) (w1 w2 : Block) (s : State) :
    emit k n f w1 w2 .nothing s =
      { s with pending := if eventEnabled s.even k then some ⟨⟨k, n, f, w1, w2⟩, .nothing⟩ else s.pending } := by
  rcases emit_cases k n f w1 w2 .nothing s with ⟨hev, he⟩ | ⟨hev, he⟩
  · rw [he, hev]
    rfl
  · rw [he, hev]
    rfl

/-! ### The registers an update leaves alone -/

/-- Every register outside `l` holds the same in both states. -/
def SameOutside (l : List Reg) (s t : State) : Prop := ∀ r ∉ l, sameReg r s t

theorem sameReg_trans {r : Reg} {s t u : State} (h : sameReg r s t) (h' : sameReg r t u) : sameReg r s u := by
  cases r <;> exact Eq.trans h' h

theorem SameOutside.mono {l l' : List Reg} {s t : State} (h : SameOutside l s t) (hl : l ⊆ l') : SameOutside l' s t :=
  fun r hr => h r fun hmem => hr (hl hmem)

theorem SameOutside.trans {l l' : List Reg} {s t u : State} (h : SameOutside l s t) (h' : SameOutside l' t u) :
    SameOutside (l ++ l') s u := fun r hr =>
  sameReg_trans (h r fun hmem => hr (List.mem_append_left _ hmem)) (h' r fun hmem => hr (List.mem_append_right _ hmem))

section
variable {s : State}

theorem sameOutside_commonUpdate {h : Head} : SameOutside commonRegs s (commonUpdate h s) := by
  intro r hr
  cases r with
  | pi | tp | pty => exact absurd (by decide) hr
  | _ => rfl

theorem sameOutside_basicUpdate {b : Basic} : SameOutside [.ta, .ms, .di] s (basicUpdate b s) := by
  intro r hr
  cases r with
  | ta | ms | di => exact absurd (by decide) hr
  | _ => rfl

theorem sameOutside_psWrite {seg : BitVec 2} {ch0 ch1 : Byte} : SameOutside [.ps] s (psWrite seg ch0 ch1 s) := by
  intro r hr
  cases r with
  | ps => exact absurd (by decide) hr
  | _ => rfl

theorem sameOutside_pinUpdate {pin : Block} : SameOutside [.pin] s (pinUpdate pin s) := by
  intro r hr
  cases r with
  | pin => exact absurd (by decide) hr
  | _ => rfl

theorem sameOutside_slowUpdate {la : Bool} {var : BitVec 3} {p : BitVec 12} :
    SameOutside (.li :: slowRegs var) s (slowUpdate la var p s) := by
  intro r hr
  rw [slowUpdate_eq]
  cases r with
  | li => exact absurd (by simp) hr
  | opc | ecc | tmcId | pagId | lang => exact if_neg fun hv => hr (by subst hv; decide)
  | _ => rfl

theorem sameOutside_slotUpdate {cig : BitVec 5} {msg aid : Block} :
    SameOutside [.slots] s (slotUpdate cig msg aid s) := by
  intro r hr
  rw [slotUpdate_frame]
  cases r with
  | slots => exact absurd (by decide) hr
  | _ => rfl

theorem sameOutside_clockUpdate {mjd : BitVec 17} {hour : BitVec 5} {minute : BitVec 6} {tzSign : Bool}
    {tzMag : BitVec 5} : SameOutside [.timeAvailable, .time] s (clockUpdate mjd hour minute tzSign tzMag s) := by
  intro r hr
  rw [clockUpdate_frame]
  cases r with
  | timeAvailable | time => exact absurd (by decide) hr
  | _ => rfl

theorem sameOutside_eonVariantUpdate {var : BitVec 4} {payload pion : Block} :
    SameOutside (eonRegs var) s (eonVariantUpdate var payload pion s) := by
  intro r hr
  rw [eonVariantUpdate_eq]
  cases r with
  | eonPs => exact if_neg fun hv => hr (by simp [eonRegs, hv])
  | eonLi | eonPty | eonTa => exact if_neg fun hv => hr (by subst hv; decide)
  | _ => rfl

theorem sameOutside_eonCommon {tpon : Bool} {pion : Block} :
    SameOutside [.eonPi, .eonTp] s (eonCommon tpon pion s) := by
  intro r hr
  cases r with
  | eonPi | eonTp => exact absurd (by decide) hr
  | _ => rfl

theorem sameOutside_eonTa {ta : Bool} : SameOutside [.eonTa] s { s with eon := { s.eon with ta := ta } } := by
  intro r hr
  cases r with
  | eonTa => exact absurd (by decide) hr
  | _ => rfl

theorem sameOutside_radiotextWrite {flip tog : Bool} {seg : BitVec 4} {chars : List Byte} :
    SameOutside [.rt, .rtToggle] s (radiotextWrite flip tog seg chars s) := by
  intro r hr
  cases r with
  | rt | rtToggle => exact absurd (by decide) hr
  | _ => rfl

theorem sameOutside_typeNameWrite {tog : Bool} {seg : BitVec 1} {chars : List Byte} :
    SameOutside [.ptyn, .ptynToggle] s (typeNameWrite tog seg chars s) := by
  intro r hr
  cases r with
  | ptyn | ptynToggle => exact absurd (by decide) hr
  | _ => rfl

theorem sameOutside_stationReset : SameOutside (writtenBy .reset) s (stationReset s) := by
  intro r hr
  cases r with
  | time | even | cont | cur => rfl
  | _ => exact absurd (by decide) hr

theorem sameOutside_even {mask : BitVec 7} : SameOutside [.even] s { s with even := mask } := by
  intro r hr
  cases r with
  | even => exact absurd (by decide) hr
  | _ => rfl

theorem sameOutside_cont {c : Cont} : SameOutside [.cont] s { s with cont := c } := by
  intro r hr
  cases r with
  | cont => exact absurd (by decide) hr
  | _ => rfl

theorem sameOutside_cur {c : Cursor} : SameOutside [.cur] s { s with cur := c } := by
  intro r hr
  cases r with
  | cur => exact absurd (by decide) hr
  | _ => rfl

/-- The answer and the event latch are no registers: two states that differ there alone agree on all of them. -/
theorem sameOutside_of_same_registers {l : List Reg} (x : Result) (p : Option Pending) :
    SameOutside l s { s with result := x, pending := p } := by
  intro r _
  cases r <;> rfl

theorem sameOutside_answer {x : Result} : SameOutside [] s (answer x s) := sameOutside_of_same_registers x s.pending

/-! ### Every operation keeps to its list (40_dispatch_basic.md R141) -/

/-- The part of a group behind its event point: nothing, or the rest of a 2A or a 2B. -/
theorem sameOutside_runRest {l : List Reg} {rest : Rest} (h : rest = .nothing ∨ [.rt, .rtToggle] ⊆ l) :
    SameOutside l s (runRest rest s) := by
  cases rest with
  | nothing => exact sameOutside_of_same_registers s.result s.pending
  | radiotext4 | radiotext2 => exact sameOutside_radiotextWrite.mono (h.resolve_left nofun)

/-- An event raised, and the event acknowledged: both touch no more than the part of the group behind it. -/
theorem sameOutside_raiseEvent {l : List Reg} {e : Option Pending}
    (he : ∀ p, e = some p → p.rest = .nothing ∨ [.rt, .rtToggle] ⊆ l) (hidle : s.pending = none) :
    SameOutside l s (raiseEvent e s) ∧ SameOutside l s (settled (raiseEvent e s)) := by
  cases e with
  | none =>
    have hsettled : settled s = s := by simp only [settled, hidle]
    have hself : SameOutside l s s := sameOutside_of_same_registers s.result s.pending
    exact ⟨hself, hsettled.symm ▸ hself⟩
  | some p =>
    have hrest : SameOutside l s (runRest p.rest s) := sameOutside_runRest (he p rfl)
    simp only [raiseEvent]
    refine ⟨?_, (settled_emit _ _ _ _ _ _ hidle).symm ▸ hrest⟩
    rcases emit_cases p.event.kind p.event.n p.event.f p.event.w1 p.event.w2 p.rest s with ⟨-, hem⟩ | ⟨-, hem⟩
    · exact hem ▸ sameOutside_of_same_registers s.result _
    · exact hem ▸ hrest

end

/-- Only the radiotext groups leave something behind their event point (60_exceptions.md R362). -/
theorem groupEvent_rest {s : State} {i : Instr} {p : Pending} (h : groupEvent s i = some p) :
    p.rest = .nothing ∨ [.rt, .rtToggle] ⊆ writtenBy i := by
  cases i with
  | group2A | group2B => exact .inr (List.subset_append_right commonRegs _)
  | group14A =>
    obtain ⟨_, -, rfl⟩ := Option.map_eq_some_iff.1 h
    exact .inl rfl
  | _ => cases h <;> exact .inl rfl

theorem sameOutside_groupWrites {i : Instr} (hg : isGroup i = true) (s : State) :
    SameOutside (writtenBy i) s (groupWrites s i) := by
  cases i with
  | group0A | group0B => exact (sameOutside_commonUpdate.trans sameOutside_basicUpdate).trans sameOutside_psWrite
  | group15B => exact sameOutside_commonUpdate.trans sameOutside_basicUpdate
  | group1A =>
    refine ((sameOutside_commonUpdate.trans sameOutside_slowUpdate).trans sameOutside_pinUpdate).mono fun r hr => ?_
    simp only [writtenBy, List.mem_append, List.mem_cons] at hr ⊢
    tauto
  | group1B => exact sameOutside_commonUpdate.trans sameOutside_pinUpdate
  | group2A | group2B =>
    simp only [groupWrites]
    split
    · exact sameOutside_commonUpdate.mono (List.subset_append_left ..)
    · exact sameOutside_commonUpdate.trans sameOutside_radiotextWrite
  | group3A => exact sameOutside_commonUpdate.trans sameOutside_slotUpdate
  | group4A =>
    simp only [groupWrites]
    split
    · exact sameOutside_commonUpdate.mono (List.subset_append_left ..)
    · exact sameOutside_commonUpdate.trans sameOutside_clockUpdate
  | group10A => exact sameOutside_commonUpdate.trans sameOutside_typeNameWrite
  | group14A =>
    refine ((sameOutside_commonUpdate.trans sameOutside_eonVariantUpdate).trans
      sameOutside_eonCommon).mono fun r hr => ?_
    simp only [writtenBy, List.mem_append] at hr ⊢
    tauto
  | group14B => exact (sameOutside_commonUpdate.trans sameOutside_eonCommon).trans sameOutside_eonTa
  | reset | qStatus | qText | qTime | evCfg | cDecrypt | cDecryptX | cLookup | uClear | uLoad | uGlue | uFlt | uRestart
  | uSetCur | uRead | uLabel | tClass3A | tClass8A => cases hg
  | _ => exact sameOutside_commonUpdate

/-- A group keeps to its list up to its event point and, carried to its end, behind it. -/
theorem sameOutside_exec_group {i : Instr} {s t : State} (hg : isGroup i = true) (h : exec i s = .next t) :
    SameOutside (writtenBy i) s t ∧ SameOutside (writtenBy i) s (settled t) := by
  obtain ⟨hidle, rfl⟩ := exec_group_next hg h
  have hwrites := sameOutside_groupWrites hg s
  obtain ⟨hraised, hsettled⟩ :=
    sameOutside_raiseEvent (fun _ => groupEvent_rest) ((groupWrites_pending s i).trans hidle)
  exact ⟨fun r hr => sameReg_trans (hwrites r hr) (hraised r hr),
    fun r hr => sameReg_trans (hwrites r hr) (hsettled r hr)⟩

theorem sameOutside_exec_command {i : Instr} {s t : State} (hg : isGroup i = false) (h : exec i s = .next t) :
    SameOutside (writtenBy i) s t := by
  cases i with
  | reset => obtain ⟨-, rfl⟩ := exec_reset_next h; exact sameOutside_stationReset.trans sameOutside_answer
  | evCfg => obtain ⟨-, rfl⟩ := exec_evCfg_next h; exact sameOutside_even.trans sameOutside_answer
  | qText => obtain ⟨-, -, rfl⟩ := exec_qText_next h; exact sameOutside_answer
  | uFlt => obtain ⟨-, -, rfl⟩ := exec_uFlt_next h; exact sameOutside_cont.trans sameOutside_answer
  | uSetCur => obtain ⟨-, rfl⟩ := exec_uSetCur_next h; exact sameOutside_cur.trans sameOutside_answer
  | uRead => obtain rfl := exec_uRead_next h; exact sameOutside_cur.trans sameOutside_answer
  | uLabel => obtain rfl := exec_uLabel_next h; exact sameOutside_cur.trans sameOutside_answer
  | uClear => cases h; exact ((sameOutside_cont (c := .zero)).trans sameOutside_cur).trans sameOutside_answer
  | uLoad | uGlue => cases h; exact sameOutside_cont.trans sameOutside_answer
  | uRestart => cases h; exact sameOutside_cur.trans sameOutside_answer
  | qStatus | qTime | cDecrypt | cDecryptX | cLookup | tClass3A | tClass8A => cases h; exact sameOutside_answer
  | _ => cases hg

/-! ### The calendar of the date formula

R162 counts years from 1 March, so its year ends with February, the one month whose length varies. -/

/-- The day of an MJD within its year of R162, counted so that 1 March is day 123. -/
def dayOfYear (mjd : Nat) : Nat := mjd - 14956 - dateYs mjd

/-- The last day of year `yp` of R162: 487, or 488 when its February has 29 days. -/
def lastDay (yp : Nat) : Nat := 487 + (yp + 1) / 4 - yp / 4

/-- The last day before month `mp` of R162's year, March being month 4. -/
def monthOffset (mp : Nat) : Nat := mp * 306001 / 10000

/-- The last day of month `mp` of R162's year `yp`. -/
def monthEnd (yp mp : Nat) : Nat := min (monthOffset (mp + 1)) (lastDay yp)

/-- The calendar month of month `mp` of R162: 4 is March, 14 and 15 are January and February. -/
def calendarMonth (mp : Nat) : Nat := if mp ≤ 13 then mp - 1 else mp - 13

/-- The calendar year of month `mp` of R162's year `yp`: its January and February are of the year after. -/
def calendarYear (yp mp : Nat) : Nat := 1900 + yp + if mp ≤ 13 then 0 else 1

/-- The quotient that gives the year of R162, as bounds. -/
theorem dateYp_eq_iff {m y : Nat} (hm : 15079 ≤ m) :
    dateYp m = y ↔ 1461 * y + 60313 ≤ 4 * m ∧ 4 * m ≤ 1461 * y + 61773 := by
  unfold dateYp
  omega

theorem dateYs_eq (m : Nat) : dateYs m = 365 * dateYp m + dateYp m / 4 := by
  unfold dateYs
  omega

/-- R162's quotients inverted: an MJD is the days of the years before its own and the day within its own. -/
theorem dateYp_dayOfYear_iff {m y d : Nat} (hm : 15079 ≤ m) :
    dateYp m = y ∧ dayOfYear m = d ↔ m = 14956 + (365 * y + y / 4) + d ∧ 123 ≤ d ∧ d ≤ lastDay y := by
  have hy := dateYp_eq_iff (y := y) hm
  unfold dayOfYear lastDay
  rw [dateYs_eq]
  constructor
  · rintro ⟨rfl, rfl⟩
    have hbounds := hy.1 rfl
    omega
  · rintro ⟨hsum, hlo, hhi⟩
    obtain rfl := hy.2 (by omega)
    omega

theorem dayOfYear_range {m : Nat} (hm : 15079 ≤ m) :
    m = 14956 + (365 * dateYp m + dateYp m / 4) + dayOfYear m ∧ 123 ≤ dayOfYear m ∧
      dayOfYear m ≤ lastDay (dateYp m) :=
  (dateYp_dayOfYear_iff hm).1 ⟨rfl, rfl⟩

/-- Within its year a day is followed by the next. -/
theorem dayOfYear_succ {m : Nat} (hm : 15079 ≤ m) (h : dayOfYear m < lastDay (dateYp m)) :
    dateYp (m + 1) = dateYp m ∧ dayOfYear (m + 1) = dayOfYear m + 1 := by
  obtain ⟨heq, hlo, -⟩ := dayOfYear_range hm
  exact (dateYp_dayOfYear_iff (by omega)).2 ⟨by omega, by omega, h⟩

/-- The last day of a year is followed by 1 March of the next. -/
theorem dayOfYear_succ_lastDay {m : Nat} (hm : 15079 ≤ m) (h : dayOfYear m = lastDay (dateYp m)) :
    dateYp (m + 1) = dateYp m + 1 ∧ dayOfYear (m + 1) = 123 := by
  obtain ⟨heq, -, -⟩ := dayOfYear_range hm
  rw [h] at heq
  unfold lastDay at heq
  refine (dateYp_dayOfYear_iff (by omega)).2 ⟨by omega, le_rfl, ?_⟩
  unfold lastDay
  omega

theorem dateMp_eq (m : Nat) : dateMp m = (dayOfYear m * 10 - 1) * 1000 / 306001 := by
  unfold dateMp dayOfYear
  omega

/-- The month a day lies in is the one whose offsets enclose it. -/
theorem dateMp_eq_iff {m mp : Nat} (h4 : 4 ≤ mp) (h15 : mp ≤ 15) :
    dateMp m = mp ↔ monthOffset mp < dayOfYear m ∧ dayOfYear m ≤ monthOffset (mp + 1) := by
  rw [dateMp_eq]
  unfold monthOffset
  interval_cases mp <;> omega

theorem dateMp_range {m : Nat} (hm : 15079 ≤ m) : 4 ≤ dateMp m ∧ dateMp m ≤ 15 := by
  obtain ⟨-, hlo, hhi⟩ := dayOfYear_range hm
  rw [dateMp_eq]
  unfold lastDay at hhi
  omega

theorem dayOfMjd_eq (m : Nat) : dayOfMjd m = dayOfYear m - monthOffset (dateMp m) := rfl

theorem dayOfMjd_range {m : Nat} (hm : 15079 ≤ m) :
    dayOfYear m = monthOffset (dateMp m) + dayOfMjd m ∧ 1 ≤ dayOfMjd m ∧
      dayOfYear m ≤ monthEnd (dateYp m) (dateMp m) := by
  obtain ⟨h4, h15⟩ := dateMp_range hm
  obtain ⟨hlo, hhi⟩ := (dateMp_eq_iff h4 h15).1 rfl
  obtain ⟨-, -, hlast⟩ := dayOfYear_range hm
  rw [dayOfMjd_eq]
  exact ⟨by omega, by omega, le_min hhi hlast⟩

theorem monthOfMjd_eq {m : Nat} (hm : 15079 ≤ m) : monthOfMjd m = calendarMonth (dateMp m) := by
  obtain ⟨-, h15⟩ := dateMp_range hm
  unfold monthOfMjd dateK calendarMonth
  split <;> split <;> omega

theorem yearOfMjd_eq {m : Nat} (hm : 15079 ≤ m) : yearOfMjd m = calendarYear (dateYp m) (dateMp m) := by
  obtain ⟨-, h15⟩ := dateMp_range hm
  unfold yearOfMjd dateK calendarYear
  split <;> split <;> omega

/-! ### The Gregorian calendar beside it -/

/-- The last day of a month, but for February, does not depend on the year. -/
theorem monthEnd_eq_monthOffset {yp mp : Nat} (h : mp ≤ 14) : monthEnd yp mp = monthOffset (mp + 1) := by
  unfold monthEnd monthOffset lastDay
  omega

theorem monthEnd_february (yp : Nat) : monthEnd yp 15 = lastDay yp := by
  unfold monthEnd monthOffset lastDay
  omega

/-- From 1901 to 2099 February follows the four-year rule, the year 2000 included. -/
theorem daysInMonth_february {yp : Nat} (h : yp < 199) :
    daysInMonth (calendarYear yp 15) 2 = monthEnd yp 15 - monthOffset 15 := by
  have hyear : calendarYear yp 15 = 1901 + yp := Nat.add_right_comm 1900 yp 1
  have hleap : isLeapYear (calendarYear yp 15) = true ↔ yp % 4 = 3 := by
    simp only [isLeapYear, hyear, Bool.and_eq_true, Bool.or_eq_true, beq_iff_eq, bne_iff_ne]
    omega
  rw [monthEnd_february]
  unfold daysInMonth lastDay monthOffset
  simp only [hleap, if_true]
  split <;> omega

/-- Every other month has one length in both calendars. -/
theorem daysInMonth_other (yp : Nat) {mp : Nat} (h4 : 4 ≤ mp) (h14 : mp ≤ 14) :
    daysInMonth (calendarYear yp mp) (calendarMonth mp) = monthEnd yp mp - monthOffset mp := by
  rw [monthEnd_eq_monthOffset h14]
  interval_cases mp <;> rfl

/-- Before 2100-02-28 a day is the last of its month in both calendars or in neither. -/
theorem dayOfMjd_lt_daysInMonth_iff {m : Nat} (hm : 15079 ≤ m) (hmax : m < 88127) :
    dayOfMjd m < daysInMonth (yearOfMjd m) (monthOfMjd m) ↔ dayOfYear m < monthEnd (dateYp m) (dateMp m) := by
  obtain ⟨h4, h15⟩ := dateMp_range hm
  obtain ⟨heq, -, -⟩ := dayOfYear_range hm
  obtain ⟨hday, h1, -⟩ := dayOfMjd_range hm
  rw [monthOfMjd_eq hm, yearOfMjd_eq hm]
  by_cases h14 : dateMp m ≤ 14
  · rw [daysInMonth_other _ h4 h14]
    omega
  have hmp : dateMp m = 15 := by omega
  rw [hmp] at hday ⊢
  rw [show calendarMonth 15 = 2 from rfl]
  by_cases hy : dateYp m < 199
  · rw [daysInMonth_february hy]
    omega
  · have hyp : dateYp m = 199 := by
      unfold monthOffset at hday
      omega
    rw [hyp] at heq ⊢
    rw [show daysInMonth (calendarYear 199 15) 2 = 28 from rfl, show monthEnd 199 15 = 488 from rfl]
    unfold monthOffset at hday
    omega

/-- A day before the last of its month. -/
theorem date_succ_within_month {m : Nat} (hm : 15079 ≤ m) (h : dayOfYear m < monthEnd (dateYp m) (dateMp m)) :
    dateYp (m + 1) = dateYp m ∧ dateMp (m + 1) = dateMp m ∧ dayOfMjd (m + 1) = dayOfMjd m + 1 := by
  obtain ⟨h4, h15⟩ := dateMp_range hm
  obtain ⟨hday, h1, -⟩ := dayOfMjd_range hm
  obtain ⟨hmonth, hyear⟩ := lt_min_iff.1 h
  obtain ⟨hyp, hd⟩ := dayOfYear_succ hm hyear
  have hmp : dateMp (m + 1) = dateMp m := (dateMp_eq_iff h4 h15).2 (by omega)
  refine ⟨hyp, hmp, ?_⟩
  rw [dayOfMjd_eq, hmp]
  omega

/-- The last day of a month other than February. -/
theorem date_succ_month {m : Nat} (hm : 15079 ≤ m) (h : dayOfYear m = monthEnd (dateYp m) (dateMp m))
    (h14 : dateMp m ≤ 14) :
    dateYp (m + 1) = dateYp m ∧ dateMp (m + 1) = dateMp m + 1 ∧ dayOfMjd (m + 1) = 1 := by
  obtain ⟨h4, -⟩ := dateMp_range hm
  rw [monthEnd_eq_monthOffset h14] at h
  obtain ⟨hyp, hd⟩ := dayOfYear_succ hm (by unfold monthOffset lastDay at *; omega)
  have hmp : dateMp (m + 1) = dateMp m + 1 := by
    refine (dateMp_eq_iff (by omega) (by omega)).2 ?_
    unfold monthOffset at *
    omega
  refine ⟨hyp, hmp, ?_⟩
  rw [dayOfMjd_eq, hmp]
  omega

/-- The last day of February. -/
theorem date_succ_year {m : Nat} (hm : 15079 ≤ m) (h : dayOfYear m = lastDay (dateYp m)) :
    dateYp (m + 1) = dateYp m + 1 ∧ dateMp (m + 1) = 4 ∧ dayOfMjd (m + 1) = 1 := by
  obtain ⟨hyp, hd⟩ := dayOfYear_succ_lastDay hm h
  have hmp : dateMp (m + 1) = 4 := by rw [dateMp_eq, hd]
  refine ⟨hyp, hmp, ?_⟩
  rw [dayOfMjd_eq, hmp, hd]
  rfl

theorem dayAfter_of_lt {y m d : Nat} (h : d < daysInMonth y m) : dayAfter y m d = (y, m, d + 1) := if_pos h

theorem dayAfter_of_not_lt {y m d : Nat} (h : ¬d < daysInMonth y m) :
    dayAfter y m d = if m < 12 then (y, m + 1, 1) else (y + 1, 1, 1) := if_neg h

/-- The months of R162 and those of the calendar follow each other, the year turning after December. -/
theorem calendar_succ_month (yp : Nat) {mp : Nat} (h4 : 4 ≤ mp) (h14 : mp ≤ 14) :
    (calendarYear yp (mp + 1), calendarMonth (mp + 1), 1) =
      if calendarMonth mp < 12 then (calendarYear yp mp, calendarMonth mp + 1, 1)
      else (calendarYear yp mp + 1, 1, 1) := by
  interval_cases mp <;> simp [calendarYear, calendarMonth]

/-! ### The date formula over the integers -/

theorem dateYp_cast {m : Nat} (hm : 15079 ≤ m) : (dateYp m : Int) = ((m : Int) * 10 - 150782) * 10 / 36525 := by
  unfold dateYp
  omega

theorem dateYs_cast (m : Nat) : (dateYs m : Int) = (dateYp m : Int) * 36525 / 100 := by
  unfold dateYs
  omega

theorem dateMp_cast {m : Nat} (hm : 15079 ≤ m) :
    (dateMp m : Int) = ((m : Int) * 10 - 149561 - dateYs m * 10) * 1000 / 306001 := by
  obtain ⟨heq, hlo, -⟩ := dayOfYear_range hm
  rw [← dateYs_eq] at heq
  unfold dateMp
  omega

theorem dateK_cast (m : Nat) : (dateK m : Int) = if (dateMp m : Int) = 14 ∨ (dateMp m : Int) = 15 then 1 else 0 := by
  unfold dateK
  norm_cast

theorem yearOfMjd_cast (m : Nat) : (yearOfMjd m : Int) = 1900 + dateYp m + dateK m := by
  unfold yearOfMjd
  norm_cast

theorem monthOfMjd_cast {m : Nat} (hm : 15079 ≤ m) : (monthOfMjd m : Int) = dateMp m - 1 - 12 * dateK m := by
  obtain ⟨h4, -⟩ := dateMp_range hm
  unfold monthOfMjd dateK
  split <;> omega

theorem dayOfMjd_cast {m : Nat} (hm : 15079 ≤ m) :
    (dayOfMjd m : Int) = m - 14956 - dateYs m - (dateMp m * 306001 : Int) / 10000 := by
  obtain ⟨heq, -, -⟩ := dayOfYear_range hm
  obtain ⟨hday, -, -⟩ := dayOfMjd_range hm
  rw [← dateYs_eq] at heq
  unfold monthOffset at hday
  omega

/-! ### The clock time -/

theorem exec_group4A_zero (h : Head) {mjd : BitVec 17} {hour : BitVec 5} {minute : BitVec 6} {tzSign : Bool}
    {tzMag : BitVec 5} {s : State} (hidle : s.pending = none)
    (hz : mjd.extractLsb' 0 15 = 0 ∧ hour = 0 ∧ minute = 0 ∧ tzSign = false ∧ tzMag = 0) :
    exec (.group4A h mjd hour minute tzSign tzMag) s = .next (commonUpdate h s) := by
  rw [exec_group4A_idle h mjd hour minute tzSign tzMag hidle, if_pos (ctPayload_eq_zero.2 hz)]

theorem exec_group4A_nonzero (h : Head) {mjd : BitVec 17} {hour : BitVec 5} {minute : BitVec 6} {tzSign : Bool}
    {tzMag : BitVec 5} {s : State} (hidle : s.pending = none)
    (hnz : ¬(mjd.extractLsb' 0 15 = 0 ∧ hour = 0 ∧ minute = 0 ∧ tzSign = false ∧ tzMag = 0)) :
    exec (.group4A h mjd hour minute tzSign tzMag) s =
      .next (clockUpdate mjd hour minute tzSign tzMag (commonUpdate h s)) := by
  rw [exec_group4A_idle h mjd hour minute tzSign tzMag hidle, if_neg (mt ctPayload_eq_zero.1 hnz)]

theorem weekdayOfMjd_cast (m : Nat) : (weekdayOfMjd m : Int) = ((m : Int) + 2) % 7 + 1 := by
  unfold weekdayOfMjd
  omega

/-- The time fields the clock update decodes for every MJD; of year, month and day it says nothing (R165). -/
theorem clockUpdate_time (mjd : BitVec 17) (hour : BitVec 5) (minute : BitVec 6) (tzSign : Bool) (tzMag : BitVec 5)
    (s : State) :
    (clockUpdate mjd hour minute tzSign tzMag s).time =
      { (clockUpdate mjd hour minute tzSign tzMag s).time with
        minute := minute, hour := hour, weekday := ((mjd.toNat : Int) + 2) % 7 + 1,
        tz := if tzSign then -(30 * (tzMag.toNat : Int)) else 30 * (tzMag.toNat : Int) } := by
  rcases clockUpdate_cases mjd hour minute tzSign tzMag s with ⟨-, htime, -⟩ | ⟨-, htime, -⟩
  · rw [htime, weekdayOfMjd_cast]; rfl
  · rw [htime, weekdayOfMjd_cast]; rfl

/-- All that a decoded 4A group may change of the spec's state. -/
theorem group4A_frame (h : Head) (mjd : BitVec 17) (hour : BitVec 5) (minute : BitVec 6) (tzSign : Bool)
    (tzMag : BitVec 5) (s : State) :
    { (clockUpdate mjd hour minute tzSign tzMag (commonUpdate h s)).withOwn s with
      reg := s.reg, time := s.time, timeAvailable := s.timeAvailable } = s := by
  rw [clockUpdate_frame]
  rfl

/-! ### The statements -/

/-- Settles O8: the register update and the DI bit, the pair of bytes, and an event with nothing behind it. -/
theorem group0AUpdatesTuningAndRaisesAf : Obligations.Group0AUpdatesTuningAndRaisesAf := by
  intro h b afpair ch0 ch1 s hidle
  refine ⟨_, exec_group0A_idle h b afpair ch0 ch1 hidle, ?_⟩
  rw [emit_nothing]
  refine ⟨rfl, fun k hk => setDi_bit _ _ _ k hk, fun a => read_segWrite_pair .ps _ _ _ _ a, ?_, rfl⟩
  simp [hidle, eventEnabled, kindId]

/-- Settles O9: as O8 without the event, and for 15B without the characters. -/
theorem group0BAnd15BUpdateTuning : Obligations.Group0BAnd15BUpdateTuning := by
  intro h b ch0 ch1 s hidle
  refine ⟨⟨_, exec_group0B_idle h b ch0 ch1 hidle, ?_⟩, ⟨_, exec_group15B_idle h b hidle, ?_⟩⟩
  · exact ⟨rfl, fun k hk => setDi_bit _ _ _ k hk, fun a => read_segWrite_pair .ps _ _ _ _ a, rfl⟩
  · exact ⟨rfl, fun k hk => setDi_bit _ _ _ k hk, rfl⟩

/-- Settles O11: the payload is zero whatever `high` is; with the last bit of block D set it is not. -/
theorem group4AZeroTimeIsSkipped : Obligations.Group4AZeroTimeIsSkipped := by
  intro h high s hidle
  have hlow : (high ++ 0#15).extractLsb' 0 15 = 0 := BitVec.extractLsb'_append_eq_right
  have hnat : (high ++ 0#15).toNat = high.toNat * 32768 := by
    rw [show (high ++ 0#15).toNat = _ from BitVec.toNat_append high 0#15]
    simp [Nat.shiftLeft_eq]
  refine ⟨⟨_, exec_group4A_zero h hidle ⟨hlow, rfl, rfl, rfl, rfl⟩, rfl, rfl⟩, ?_⟩
  refine ⟨_, exec_group4A_nonzero h hidle (by simp), clockUpdate_reg .., clockUpdate_timeAvailable .., ?_⟩
  have htime := clockUpdate_time (high ++ 0#15) 0 0 false 1 (commonUpdate h s)
  rw [hnat] at htime
  refine ⟨by rw [htime], by rw [htime], by rw [htime]; rfl, ?_, group4A_frame ..⟩
  rw [htime]
  push_cast
  rfl

/-- Settles O12: from MJD 15079 on no subtraction truncates, so each intermediate value is R162's integer. -/
theorem group4AStoresTheTime : Obligations.Group4AStoresTheTime := by
  intro h mjd hour minute tzSign tzMag s hidle hnz hm mjd' yp ys mp k
  have hyp : yp = dateYp mjd.toNat := (dateYp_cast hm).symm
  have hys : ys = dateYs mjd.toNat := by rw [dateYs_cast, ← hyp]
  have hmp : mp = dateMp mjd.toNat := by rw [dateMp_cast hm, ← hys]
  have hk : k = dateK mjd.toNat := by rw [dateK_cast, ← hmp]
  refine ⟨_, exec_group4A_nonzero h hidle hnz, clockUpdate_reg .., clockUpdate_timeAvailable .., ?_, group4A_frame ..⟩
  rw [clockUpdate_dated hm, hyp, hys, hmp, hk, ← yearOfMjd_cast, ← monthOfMjd_cast hm, ← dayOfMjd_cast hm,
    ← weekdayOfMjd_cast]
  rfl

/-- Settles O13: what the clock update decodes for every MJD, below 15079 too. -/
theorem group4ABelow15079LeavesTheDateOpen : Obligations.Group4ABelow15079LeavesTheDateOpen := by
  intro h mjd hour minute tzSign tzMag s hidle hnz _
  exact ⟨_, exec_group4A_nonzero h hidle hnz, clockUpdate_reg .., clockUpdate_timeAvailable .., clockUpdate_time ..,
    group4A_frame ..⟩

/-- Settles O14: the two calendars end their months on the same days, and step from month to month alike. -/
theorem dateIsGregorianUntil2100 : Obligations.DateIsGregorianUntil2100 := by
  refine ⟨by decide, fun m hm hmax => ?_, by decide, by decide⟩
  obtain ⟨h4, h15⟩ := dateMp_range hm
  obtain ⟨-, -, hle⟩ := dayOfMjd_range hm
  have hlast := dayOfMjd_lt_daysInMonth_iff hm hmax
  have hm' : 15079 ≤ m + 1 := by omega
  rcases hle.lt_or_eq with hlt | hend
  · obtain ⟨hyp, hmp, hday⟩ := date_succ_within_month hm hlt
    rw [dayAfter_of_lt (hlast.2 hlt), yearOfMjd_eq hm, monthOfMjd_eq hm, yearOfMjd_eq hm', monthOfMjd_eq hm', hyp, hmp,
      hday]
  rw [dayAfter_of_not_lt (by omega), yearOfMjd_eq hm, monthOfMjd_eq hm, yearOfMjd_eq hm', monthOfMjd_eq hm']
  by_cases h14 : dateMp m ≤ 14
  · obtain ⟨hyp, hmp, hday⟩ := date_succ_month hm hend h14
    rw [hyp, hmp, hday]
    exact calendar_succ_month _ h4 h14
  · have hfeb : dateMp m = 15 := by omega
    rw [hfeb, monthEnd_february] at hend
    obtain ⟨hyp, hmp, hday⟩ := date_succ_year hm hend
    rw [hyp, hmp, hday, hfeb]
    simp [calendarYear, calendarMonth, Nat.add_assoc]

/-- Settles O15: the day of the year and the month enclose each other, and everything else is linear in them. -/
theorem dateRangesHold : Obligations.DateRangesHold := by
  refine ⟨fun m hm hmax => ?_, by decide⟩
  obtain ⟨heq, hlo, hhi⟩ := dayOfYear_range hm
  obtain ⟨h4, h15⟩ := dateMp_range hm
  obtain ⟨hday, h1, hend⟩ := dayOfMjd_range hm
  rw [dateYs_eq]
  unfold yearOfMjd monthOfMjd dateK
  unfold monthEnd monthOffset lastDay at *
  split <;> omega

/-- Settles O29: a group by its writes and its event, a command by its inversion lemma. -/
theorem registersHaveOnlyTheirWriters : Obligations.RegistersHaveOnlyTheirWriters := by
  intro i s
  refine ⟨fun hg hidle => ⟨_, (exec_group hg s).trans (whenIdle_idle _ hidle)⟩, fun t h r hr => ?_⟩
  by_cases hg : isGroup i = true
  · obtain ⟨hraised, hsettled⟩ := sameOutside_exec_group hg h
    exact ⟨hraised r hr, fun _ => hsettled r hr⟩
  · exact ⟨sameOutside_exec_command (by simpa using hg) h r hr, fun hg' => absurd hg' hg⟩

/-- Settles O5: each word is closed, and the decoder evaluates on it. -/
theorem specWordsDecode : Obligations.SpecWordsDecode := by
  and_intros <;> decide

/-- Settles O10: `slowUpdate_eq` names the registers of each variant, and both groups end with PIN. -/
theorem group1AAnd1BUpdateLabelsAndItem : Obligations.Group1AAnd1BUpdateLabelsAndItem := by
  intro h la var payload pin s hidle
  refine ⟨⟨_, exec_group1A_idle h la var payload pin hidle, ?_⟩, ⟨_, exec_group1B_idle h pin hidle, rfl, rfl⟩⟩
  rw [slowUpdate_eq]
  exact ⟨rfl, rfl⟩

/-- Settles O16: all four types are the common update. -/
theorem noOpGroupsDoTheCommonUpdate : Obligations.NoOpGroupsDoTheCommonUpdate := by
  intro h s hidle i hi
  have hexec : exec i s = .next (commonUpdate h s) := by
    simp only [List.mem_cons, List.not_mem_nil, or_false] at hi
    rcases hi with rfl | rfl | rfl | rfl
    · exact exec_group7A_idle h hidle
    · exact exec_group9A_idle h hidle
    · exact exec_group13A_idle h hidle
    · exact exec_group15A_idle h hidle
  exact ⟨_, hexec, rfl, rfl⟩

end Sys2Proof.Machine

/-! # Proofs of the statements about text reassembly (41_text_reassembly.md)

2A and 2B are one group with four characters or two: `RadiotextReassembled` says what such a group does for any way
`laid` its characters go over a buffer, and `radiotextGroup_reassembled` proves it once. For the two names, the
operations that may write the buffer are read off `writtenBy`, and a segment write changes only its own pair. -/

namespace Sys2Proof.Machine

/-! ### Segment writes read back -/

/-- Byte `a` of a buffer after two characters went to a segment, when it was `old` before. -/
def laidPair (seg : Nat) (b0 b1 : Byte) (a : Nat) (old : Byte) : Byte :=
  if a = 2 * seg then b0 else if a = 2 * seg + 1 then b1 else old

/-- Byte `a` of a buffer after four characters went to a segment, when it was `old` before. -/
def laidQuad (seg : Nat) (b0 b1 b2 b3 : Byte) (a : Nat) (old : Byte) : Byte :=
  if a = 4 * seg then b0 else if a = 4 * seg + 1 then b1 else if a = 4 * seg + 2 then b2
  else if a = 4 * seg + 3 then b3 else old

theorem read_segWrite_laidPair (sp : Space) (seg : Nat) (b0 b1 : Byte) (m : Memory) (a : Nat) :
    Memory.read sp (segWrite sp seg [b0, b1] m) a = laidPair seg b0 b1 a (Memory.read sp m a) :=
  read_segWrite_pair sp seg b0 b1 m a

/-- Four characters written to a segment (41_text_reassembly.md R180). -/
theorem read_segWrite_laidQuad (sp : Space) (seg : Nat) (b0 b1 b2 b3 : Byte) (m : Memory) (a : Nat) :
    Memory.read sp (segWrite sp seg [b0, b1, b2, b3] m) a = laidQuad seg b0 b1 b2 b3 a (Memory.read sp m a) := by
  rw [read_segWrite]
  unfold laidQuad
  by_cases h0 : a = 4 * seg
  · simp [h0]
  by_cases h1 : a = 4 * seg + 1
  · simp [h1]
  by_cases h2 : a = 4 * seg + 2
  · simp [h2]
  by_cases h3 : a = 4 * seg + 3
  · simp [h3]
  rw [if_neg h0, if_neg h1, if_neg h2, if_neg h3]
  exact if_neg (by simp only [List.length_cons, List.length_nil]; omega)

/-- A byte that a segment write of two characters changes lies in the segment, and holds its character. -/
theorem segWrite_pair_changed {sp : Space} {seg : Nat} {b0 b1 : Byte} {m m' : Memory} {a : Nat}
    (hm : m' = segWrite sp seg [b0, b1] m) (hne : Memory.read sp m' a ≠ Memory.read sp m a) :
    (a = 2 * seg ∧ Memory.read sp m' a = b0) ∨ (a = 2 * seg + 1 ∧ Memory.read sp m' a = b1) := by
  subst hm
  rw [read_segWrite_pair] at hne ⊢
  by_cases h0 : a = 2 * seg
  · exact .inl ⟨h0, if_pos h0⟩
  by_cases h1 : a = 2 * seg + 1
  · exact .inr ⟨h1, by rw [if_neg h0, if_pos h1]⟩
  · rw [if_neg h0, if_neg h1] at hne
    exact absurd rfl hne

/-! ### The toggle -/

theorem flips_eq_true {tracker tog : Bool} : flips tracker tog = true ↔ tog ≠ tracker := by
  simp [flips]

theorem flips_self (tog : Bool) : flips tog tog = false := by
  simp [flips]

/-! ### Radiotext -/

/-- A 2A or 2B group on an idle block (41_text_reassembly.md R185, R186), with what stands behind its event in
`rest`. -/
def radiotextGroup (h : Head) (f tog : Bool) (seg : BitVec 4) (chars : List Byte) (rest : Rest) (s : State) : State :=
  if flips s.rtToggle tog then emit .rt 0 f 0 0 rest (commonUpdate h s)
  else radiotextWrite false tog seg chars (commonUpdate h s)

theorem exec_group2A_radiotextGroup (h : Head) (tog : Bool) (seg : BitVec 4) (ch0 ch1 ch2 ch3 : Byte) {s : State}
    (hidle : s.pending = none) :
    exec (.group2A h tog seg ch0 ch1 ch2 ch3) s =
      .next (radiotextGroup h true tog seg [ch0, ch1, ch2, ch3] (.radiotext4 tog seg ch0 ch1 ch2 ch3) s) :=
  exec_group2A_idle h tog seg ch0 ch1 ch2 ch3 hidle

theorem exec_group2B_radiotextGroup (h : Head) (tog : Bool) (seg : BitVec 4) (ch0 ch1 : Byte) {s : State}
    (hidle : s.pending = none) :
    exec (.group2B h tog seg ch0 ch1) s =
      .next (radiotextGroup h false tog seg [ch0, ch1] (.radiotext2 tog seg ch0 ch1) s) :=
  exec_group2B_idle h tog seg ch0 ch1 hidle

/-- What takes `s` to `t` in a radiotext group: `laid a old` is byte `a` of the buffer after the segment write, when it
was `old` before. Without a flip it goes over the old buffer, on a flip over a cleared one; with kind RT enabled
that waits for the acknowledgement. -/
def RadiotextReassembled (h : Head) (f tog : Bool) (laid : Nat → Byte → Byte) (s t : State) : Prop :=
  t.reg = { s.reg with pi := h.pi, tp := h.tp, pty := h.pty } ∧
    (tog = s.rtToggle →
      (∀ a, t.byteAt .rt a = laid a (s.byteAt .rt a)) ∧ { t.withOwn s with reg := s.reg, rt := s.rt } = s) ∧
    (tog ≠ s.rtToggle → s.even.getLsbD 5 = false →
      t.rtToggle = tog ∧ (∀ a, t.byteAt .rt a = laid a 0x20) ∧
        { t.withOwn s with reg := s.reg, rt := s.rt, rtToggle := s.rtToggle } = s) ∧
    (tog ≠ s.rtToggle → s.even.getLsbD 5 = true →
      (∃ r, t.pending = some ⟨⟨.rt, 0, f, 0, 0⟩, r⟩) ∧
        { t.withOwn s with reg := s.reg, pending := s.pending } = s ∧
        ∃ u, acknowledge t = .next u ∧ u.pending = none ∧ u.rtToggle = tog ∧
          (∀ a, u.byteAt .rt a = laid a 0x20) ∧
          { u.withOwn t with pending := t.pending, rt := t.rt, rtToggle := t.rtToggle } = t)

/-- A radiotext group reassembles the text, whether its flip's clear and write run at once or behind the event. -/
theorem radiotextGroup_reassembled {h : Head} {f tog : Bool} {seg : BitVec 4} {chars : List Byte} {rest : Rest}
    {laid : Nat → Byte → Byte} (s : State)
    (hrest : ∀ u, runRest rest u = radiotextWrite true tog seg chars u)
    (hlaid : ∀ m a, Memory.read .rt (segWrite .rt seg.toNat chars m) a = laid a (Memory.read .rt m a)) :
    RadiotextReassembled h f tog laid s (radiotextGroup h f tog seg chars rest s) := by
  unfold radiotextGroup
  by_cases htog : tog = s.rtToggle
  · subst htog
    rw [flips_self]
    exact ⟨rfl, fun _ => ⟨fun a => hlaid s.rt a, rfl⟩, fun hne => absurd rfl hne, fun hne => absurd rfl hne⟩
  rw [if_pos (flips_eq_true.2 htog)]
  rcases emit_cases .rt 0 f 0 0 rest (commonUpdate h s) with ⟨hev, hem⟩ | ⟨hev, hem⟩
  · rw [hem]
    refine ⟨rfl, fun heq => absurd heq htog, fun _ hoff => absurd (hoff.symm.trans hev) (by decide), fun _ _ => ?_⟩
    refine ⟨⟨rest, rfl⟩, rfl, _, congrArg Host.Outcome.next (hrest _), ?_⟩
    exact ⟨rfl, rfl, fun a => hlaid clearedBuffer a, rfl⟩
  · rw [hem, hrest]
    refine ⟨rfl, fun heq => absurd heq htog, fun _ _ => ?_, fun _ hon => absurd (hev.symm.trans hon) (by decide)⟩
    exact ⟨rfl, fun a => hlaid clearedBuffer a, rfl⟩

/-! ### The two names -/

@[simp] theorem raiseEvent_ps (e : Option Pending) (s : State) : (raiseEvent e s).ps = s.ps :=
  (congrArg (fun x : State => x.ps) (raiseEvent_frame e s) :)

/-- No slow-label variant writes a name (40_dispatch_basic.md R150). -/
theorem names_not_mem_slowRegs (var : BitVec 3) : Reg.ps ∉ slowRegs var ∧ Reg.eonPs ∉ slowRegs var := by
  unfold slowRegs
  split_ifs <;> decide

theorem ps_not_mem_eonRegs (var : BitVec 4) : Reg.ps ∉ eonRegs var := by
  unfold eonRegs
  split_ifs <;> decide

/-- Variants 0 to 3 of 14A alone write the other network's name (42_oda_eon.md R236). -/
theorem eonPs_mem_eonRegs {var : BitVec 4} : Reg.eonPs ∈ eonRegs var ↔ var.toNat ≤ 3 := by
  unfold eonRegs
  split_ifs with hvar <;> simp [hvar]

/-- The operations that may write PS (10_state.md R26). -/
theorem ps_mem_writtenBy {i : Instr} (h : Reg.ps ∈ writtenBy i) :
    i = .reset ∨ (∃ hd b afpair ch0 ch1, i = .group0A hd b afpair ch0 ch1) ∨
      ∃ hd b ch0 ch1, i = .group0B hd b ch0 ch1 := by
  cases i with
  | reset => exact .inl rfl
  | group0A hd b afpair ch0 ch1 => exact .inr (.inl ⟨hd, b, afpair, ch0, ch1, rfl⟩)
  | group0B hd b ch0 ch1 => exact .inr (.inr ⟨hd, b, ch0, ch1, rfl⟩)
  | group1A => simp [writtenBy, commonRegs, names_not_mem_slowRegs] at h
  | group14A => simp [writtenBy, commonRegs, ps_not_mem_eonRegs] at h
  | _ => simp [writtenBy, commonRegs] at h

/-- The operations that may write EON.PS (10_state.md R30). -/
theorem eonPs_mem_writtenBy {i : Instr} (h : Reg.eonPs ∈ writtenBy i) :
    i = .reset ∨ ∃ hd tpon var payload pion, i = .group14A hd tpon var payload pion ∧ var.toNat ≤ 3 := by
  cases i with
  | reset => exact .inl rfl
  | group14A hd tpon var payload pion =>
    exact .inr ⟨hd, tpon, var, payload, pion, rfl, by simpa [writtenBy, commonRegs, eonPs_mem_eonRegs] using h⟩
  | group1A => simp [writtenBy, commonRegs, names_not_mem_slowRegs] at h
  | _ => simp [writtenBy, commonRegs] at h

/-- An operation that changes a register lists it among those it writes (40_dispatch_basic.md R141). -/
theorem mem_writtenBy_of_exec {i : Instr} {s t : State} {r : Reg} (h : exec i s = .next t) (hr : ¬sameReg r s t) :
    r ∈ writtenBy i := by
  obtain ⟨-, hsame⟩ := registersHaveOnlyTheirWriters i s
  by_contra hmem
  exact hr (hsame t h r hmem).1

theorem exec_group0A_ps {hd : Head} {b : Basic} {afpair : Block} {ch0 ch1 : Byte} {s t : State}
    (h : exec (.group0A hd b afpair ch0 ch1) s = .next t) : t.ps = segWrite .ps b.seg.toNat [ch0, ch1] s.ps := by
  obtain ⟨-, rfl⟩ := exec_group_next rfl h
  simp [groupWrites]

theorem exec_group0B_ps {hd : Head} {b : Basic} {ch0 ch1 : Byte} {s t : State}
    (h : exec (.group0B hd b ch0 ch1) s = .next t) : t.ps = segWrite .ps b.seg.toNat [ch0, ch1] s.ps := by
  obtain ⟨-, rfl⟩ := exec_group_next rfl h
  simp [groupWrites]

theorem exec_group14A_eonPs {hd : Head} {tpon : Bool} {var : BitVec 4} {payload pion : Block} {s t : State}
    (hvar : var.toNat ≤ 3) (h : exec (.group14A hd tpon var payload pion) s = .next t) :
    t.eon.ps = segWrite .eonPs var.toNat [payload.extractLsb' 8 8, payload.extractLsb' 0 8] s.eon.ps := by
  obtain ⟨-, rfl⟩ := exec_group_next rfl h
  simp [groupWrites, eonVariantUpdate_eq, hvar]

/-- An operation that changes a byte of PS is RESET, or a 0A or 0B group whose segment covers the byte
(41_text_reassembly.md R196). -/
theorem exec_ps_changed {i : Instr} {s t : State} {a : Nat} (h : exec i s = .next t)
    (hne : t.byteAt .ps a ≠ s.byteAt .ps a) :
    i = .reset ∨
      (∃ hd b afpair ch0 ch1, i = .group0A hd b afpair ch0 ch1 ∧
        ((a = 2 * b.seg.toNat ∧ t.byteAt .ps a = ch0) ∨ (a = 2 * b.seg.toNat + 1 ∧ t.byteAt .ps a = ch1))) ∨
      ∃ hd b ch0 ch1, i = .group0B hd b ch0 ch1 ∧
        ((a = 2 * b.seg.toNat ∧ t.byteAt .ps a = ch0) ∨ (a = 2 * b.seg.toNat + 1 ∧ t.byteAt .ps a = ch1)) := by
  have hps : t.ps ≠ s.ps := fun heq => hne (congrArg (Memory.read .ps · a) heq)
  rcases ps_mem_writtenBy (mem_writtenBy_of_exec h hps) with
    rfl | ⟨hd, b, afpair, ch0, ch1, rfl⟩ | ⟨hd, b, ch0, ch1, rfl⟩
  · exact .inl rfl
  · exact .inr (.inl ⟨hd, b, afpair, ch0, ch1, rfl, segWrite_pair_changed (exec_group0A_ps h) hne⟩)
  · exact .inr (.inr ⟨hd, b, ch0, ch1, rfl, segWrite_pair_changed (exec_group0B_ps h) hne⟩)

/-- An operation that changes a byte of EON.PS is RESET, or a 14A group of variant 0 to 3 that covers the byte
(41_text_reassembly.md R181, R196). -/
theorem exec_eonPs_changed {i : Instr} {s t : State} {a : Nat} (h : exec i s = .next t)
    (hne : t.byteAt .eonPs a ≠ s.byteAt .eonPs a) :
    i = .reset ∨ ∃ hd tpon var payload pion, i = .group14A hd tpon var payload pion ∧ var.toNat ≤ 3 ∧
      ((a = 2 * var.toNat ∧ t.byteAt .eonPs a = payload.extractLsb' 8 8) ∨
        (a = 2 * var.toNat + 1 ∧ t.byteAt .eonPs a = payload.extractLsb' 0 8)) := by
  have hps : t.eon.ps ≠ s.eon.ps := fun heq => hne (congrArg (Memory.read .eonPs · a) heq)
  rcases eonPs_mem_writtenBy (mem_writtenBy_of_exec h hps) with rfl | ⟨hd, tpon, var, payload, pion, rfl, hvar⟩
  · exact .inl rfl
  · exact .inr ⟨hd, tpon, var, payload, pion, rfl, hvar, segWrite_pair_changed (exec_group14A_eonPs hvar h) hne⟩

/-! ### The statements -/

/-- Settles O17: a radiotext group with four characters. -/
theorem group2AReassemblesRadiotext : Obligations.Group2AReassemblesRadiotext := by
  intro h tog seg ch0 ch1 ch2 ch3 s hidle
  exact ⟨_, exec_group2A_radiotextGroup h tog seg ch0 ch1 ch2 ch3 hidle,
    radiotextGroup_reassembled s (fun _ => rfl) (read_segWrite_laidQuad .rt seg.toNat ch0 ch1 ch2 ch3)⟩

/-- Settles O18: a radiotext group with two characters. -/
theorem group2BReassemblesRadiotext : Obligations.Group2BReassemblesRadiotext := by
  intro h tog seg ch0 ch1 s hidle
  exact ⟨_, exec_group2B_radiotextGroup h tog seg ch0 ch1 hidle,
    radiotextGroup_reassembled s (fun _ => rfl) (read_segWrite_laidPair .rt seg.toNat ch0 ch1)⟩

/-- Settles O19: four characters over the old buffer or, on a flip, over the cleared one. -/
theorem group10AReassemblesTheTypeName : Obligations.Group10AReassemblesTheTypeName := by
  intro h tog seg ch0 ch1 ch2 ch3 s hidle
  refine ⟨_, exec_group10A_idle h tog seg ch0 ch1 ch2 ch3 hidle, rfl, rfl, fun a => ?_, rfl⟩
  have hkept : Memory.read .ptyn (if flips s.ptynToggle tog then clearedBuffer else s.ptyn) a =
      if tog = s.ptynToggle then s.byteAt .ptyn a else 0x20 := by
    by_cases htog : tog = s.ptynToggle
    · rw [if_pos htog, htog, flips_self]
      rfl
    · rw [if_neg htog, if_pos (flips_eq_true.2 htog)]
      rfl
  rw [← hkept]
  exact read_segWrite_laidQuad .ptyn _ _ _ _ _ _ a

/-- Settles O30: an idle step and an acknowledgement leave both names alone, and an operation changes a byte of
them only as `exec_ps_changed` and `exec_eonPs_changed` say. -/
theorem nameBytesChangeOnlyBySegmentWriteOrReset : Obligations.NameBytesChangeOnlyBySegmentWriteOrReset := by
  intro s t a h
  rcases step_next h with ⟨-, rfl⟩ | ⟨_, p, -, -, rfl⟩ | ⟨p, i, rest, hin, hd, he⟩
  · exact ⟨fun hne => absurd rfl hne, fun hne => absurd rfl hne⟩
  · constructor <;> exact fun hne => absurd (by simp [State.byteAt, State.buffer]) hne
  · exact ⟨fun hne => ⟨p, i, rest, hin, hd, exec_ps_changed he hne⟩,
      fun hne => ⟨p, i, rest, hin, hd, exec_eonPs_changed he hne⟩⟩

end Sys2Proof.Machine

/-! # Proofs of the statements about announcements, carriers and the other network (42_oda_eon.md)

No group of this family has a rest behind its event, so on an idle block the event only fills the latch
(`emit_nothing_idle`). A carrier is that event on the common update; 3A and 14A raise it on their own writes. -/

namespace Sys2Proof.Machine

/-! ### The event -/

/-- On an idle block an event with nothing behind it waits in the latch or is dropped (60_exceptions.md R358). -/
theorem emit_nothing_idle (k : EventKind) (n : BitVec 8) (f : Bool) (w1 w2 : Block) {s : State}
    (hidle : s.pending = none) :
    emit k n f w1 w2 .nothing s =
      { s with pending := if eventEnabled s.even k then some ⟨⟨k, n, f, w1, w2⟩, .nothing⟩ else none } := by
  rw [emit_nothing, hidle]

/-! ### The carriers -/

/-- What takes `s` to `t` in a carrier group: the event `e` raised when its kind is enabled, and nothing but PI, TP
and PTY written (42_oda_eon.md R220, R228, R232). -/
def RaisesAlone (h : Head) (e : Event) (s t : State) : Prop :=
  t.reg = { s.reg with pi := h.pi, tp := h.tp, pty := h.pty } ∧
    t.pending = (if eventEnabled s.even e.kind then some ⟨e, .nothing⟩ else none) ∧
    { t.withOwn s with reg := s.reg, pending := s.pending } = s

theorem emit_commonUpdate_raisesAlone (h : Head) (k : EventKind) (n : BitVec 8) (f : Bool) (w1 w2 : Block) {s : State}
    (hidle : s.pending = none) :
    RaisesAlone h ⟨k, n, f, w1, w2⟩ s (emit k n f w1 w2 .nothing (commonUpdate h s)) := by
  rw [emit_nothing_idle k n f w1 w2 ((commonUpdate_pending h s).trans hidle)]
  exact ⟨rfl, rfl, rfl⟩

theorem carrierA_raisesAlone (k : EventKind) (h : Head) (sub : BitVec 5) (c d : Block) {s : State}
    (hidle : s.pending = none) : RaisesAlone h ⟨k, sub.setWidth 8, true, c, d⟩ s (carrierA k h sub c d s) :=
  emit_commonUpdate_raisesAlone h k _ true c d hidle

theorem carrierB_raisesAlone (k : EventKind) (h : Head) (sub : BitVec 5) (d : Block) {s : State}
    (hidle : s.pending = none) : RaisesAlone h ⟨k, sub.setWidth 8, false, 0, d⟩ s (carrierB k h sub d s) :=
  emit_commonUpdate_raisesAlone h k _ false 0 d hidle

/-! ### The announcement -/

/-- Each slot after a 3A's write: the selected one holds its three values, the others are kept (10_state.md R28). -/
theorem getSlot_slotUpdate (cig : BitVec 5) (msg aid : Block) (s : State) (j : SlotId) :
    getSlot (slotUpdate cig msg aid s).slot j =
      if slotOf Config.aids aid cig = some j then ⟨cig, msg, aid⟩ else getSlot s.slot j := by
  rcases slotUpdate_cases cig msg aid s with ⟨k, hk, hs⟩ | ⟨hk, hs⟩
  · rw [hk, hs, getSlot_setSlot]
    simp only [Option.some.injEq, eq_comm]
  · rw [hk, hs]
    rfl

/-! ### The other network -/

/-- What is latched after a 14A group: the event of a frequency variant when kind EON is enabled (42_oda_eon.md R236,
R239). -/
def eonLatch (even : BitVec 7) (var : BitVec 4) (payload pion : Block) : Option Pending :=
  if 4 ≤ var.toNat ∧ var.toNat ≤ 9 ∧ even.getLsbD 4 = true then
    some ⟨⟨.eon, if var.toNat = 4 then 1 else if var.toNat ≤ 8 then 2 else 3, true, payload, pion⟩, .nothing⟩
  else none

/-- GROUP.14A on an idle block: the variant's writes, 14B's update, and the event in the latch. -/
theorem exec_group14A_latched (h : Head) (tpon : Bool) (var : BitVec 4) (payload pion : Block) {s : State}
    (hidle : s.pending = none) :
    exec (.group14A h tpon var payload pion) s =
      .next { eonCommon tpon pion (eonVariantUpdate var payload pion (commonUpdate h s)) with
        pending := eonLatch s.even var payload pion } := by
  rw [exec_group rfl, whenIdle_idle _ hidle]
  refine congrArg Host.Outcome.next ?_
  simp only [groupEvent, groupWrites, eonEventParam_eq, eonLatch, ← and_assoc]
  generalize hu : eonCommon tpon pion (eonVariantUpdate var payload pion (commonUpdate h s)) = u
  have hpend : u.pending = none := by rw [← hu]; simpa using hidle
  have heven : u.even = s.even := by rw [← hu]; simp
  by_cases hfreq : 4 ≤ var.toNat ∧ var.toNat ≤ 9
  · simp only [hfreq, and_self, true_and, if_true, Option.map_some, raiseEvent]
    rw [emit_nothing_idle _ _ _ _ _ hpend, heven]
    rfl
  · simp only [hfreq, false_and, if_false, Option.map_none, raiseEvent]
    rw [← hpend]

/-! ### The statements -/

/-- Settles O20: the statement's chain is `slotOf`, and its kind and enable bit are those of `announcementKind`. -/
theorem group3AWritesTheSelectedSlot : Obligations.Group3AWritesTheSelectedSlot := by
  intro h cig msg aid s hidle k kind bit
  have hk : k = slotOf Config.aids aid cig := by
    simp only [k, slotOf, Config.aids, List.mem_cons, List.not_mem_nil, or_false]
    congr
  have hkind : kind = announcementKind Config.kind3A := by
    cases hK : Config.kind3A <;> simp only [kind, hK] <;> rfl
  have hbit : bit = kindId (announcementKind Config.kind3A) := by
    cases hK : Config.kind3A <;> simp only [bit, hK] <;> rfl
  refine ⟨_, exec_group3A_idle h cig msg aid hidle, ?_⟩
  rw [emit_nothing_idle _ _ _ _ _ (by simpa using hidle), hk, hkind, hbit]
  refine ⟨slotUpdate_reg .., getSlot_slotUpdate cig msg aid (commonUpdate h s), ?_, ?_⟩
  · simp only [slotUpdate_even, commonUpdate_even]
    rfl
  · rw [slotUpdate_frame]
    rfl

/-- Settles O23: `eonVariantUpdate_eq` names the registers of each variant. -/
theorem group14AWritesTheOtherNetwork : Obligations.Group14AWritesTheOtherNetwork := by
  intro h tpon var payload pion s hidle
  refine ⟨_, exec_group14A_latched h tpon var payload pion hidle, ?_⟩
  rw [eonVariantUpdate_eq]
  refine ⟨rfl, rfl, fun hvar a => ?_, fun hvar => if_neg (Nat.not_le.2 hvar), rfl, rfl⟩
  simp only [State.byteAt, State.buffer, eonCommon_eon, if_pos hvar]
  exact read_segWrite_pair .eonPs _ _ _ _ a

/-- Settles O21: all thirteen types are one of the two carriers with kind ODA. -/
theorem genericCarriersRaiseOda : Obligations.GenericCarriersRaiseOda := by
  intro h sub c d s hidle
  constructor
  · intro i hi
    have hexec : exec i s = .next (carrierA .oda h sub c d s) := by
      simp only [List.mem_cons, List.not_mem_nil, or_false] at hi
      rcases hi with rfl | rfl | rfl
      · exact exec_group6A_idle h sub c d hidle
      · exact exec_group11A_idle h sub c d hidle
      · exact exec_group12A_idle h sub c d hidle
    exact ⟨_, hexec, carrierA_raisesAlone .oda h sub c d hidle⟩
  · intro i hi
    have hexec : exec i s = .next (carrierB .oda h sub d s) := by
      simp only [List.mem_cons, List.not_mem_nil, or_false] at hi
      rcases hi with rfl | rfl | rfl | rfl | rfl | rfl | rfl | rfl | rfl | rfl
      · exact exec_group3B_idle h sub d hidle
      · exact exec_group4B_idle h sub d hidle
      · exact exec_group6B_idle h sub d hidle
      · exact exec_group7B_idle h sub d hidle
      · exact exec_group8B_idle h sub d hidle
      · exact exec_group9B_idle h sub d hidle
      · exact exec_group10B_idle h sub d hidle
      · exact exec_group11B_idle h sub d hidle
      · exact exec_group12B_idle h sub d hidle
      · exact exec_group13B_idle h sub d hidle
    exact ⟨_, hexec, carrierB_raisesAlone .oda h sub d hidle⟩

/-- Settles O22: the two carriers with kind TDC, and the A-version one with kind TMC. -/
theorem dataChannelAndTmcCarriersRaiseTheirEvents : Obligations.DataChannelAndTmcCarriersRaiseTheirEvents := by
  intro h sub c d s hidle
  exact ⟨⟨_, exec_group5A_idle h sub c d hidle, carrierA_raisesAlone .tdc h sub c d hidle⟩,
    ⟨_, exec_group5B_idle h sub d hidle, carrierB_raisesAlone .tdc h sub d hidle⟩,
    ⟨_, exec_group8A_idle h sub c d hidle, carrierA_raisesAlone .tmc h sub c d hidle⟩⟩

/-- Settles O24: the shared update and TA, with no event point. -/
theorem group14BWritesTheOtherNetwork : Obligations.Group14BWritesTheOtherNetwork := by
  intro h tpon taon pion s hidle
  exact ⟨_, exec_group14B_idle h tpon taon pion hidle, rfl, rfl, rfl⟩

end Sys2Proof.Machine

/-! # Proofs of the statements about the TMC classifier (43_tmc_classifier.md)

Both operations answer a function of their operands and leave the block alone (R251): what remains to say is that
function, by variant for an announcement and by the order of the tests for a message. -/

namespace Sys2Proof.Machine

/-! ### Answering -/

/-- An answer stands on the host's side, so the block's own state is kept. -/
theorem withOwn_answer (r : Result) (s : State) : (answer r s).withOwn s = s := rfl

theorem exec_tClass3A (y : Block) (s : State) :
    exec (.tClass3A y) s = .next (answer (.class3A (classify3A y)) s) := rfl

theorem exec_tClass8A (x : BitVec 5) (y z : Block) (s : State) :
    exec (.tClass8A x y z) s = .next (answer (.class8A (classify8A Config.isEncAdmin x y z)) s) := rfl

/-! ### The class of an announcement, by variant -/

section
variable {y : Block}

theorem classify3A_cls_of_variant_zero (h : (classify3A y).variant = 0) :
    (classify3A y).cls = .sysLocation (locationRecord y) := by
  simp only [classify3A] at h ⊢
  rw [h]
  rfl

theorem classify3A_cls_of_variant_one (h : (classify3A y).variant = 1) :
    (classify3A y).cls = .sysService (serviceRecord y) := by
  simp only [classify3A] at h ⊢
  rw [h]
  rfl

/-- An unrecognised variant has the records of the zero word (43_tmc_classifier.md R254). -/
theorem classify3A_cls_of_variant_unknown (h : (classify3A y).variant = 2 ∨ (classify3A y).variant = 3) :
    (classify3A y).cls = .sysUnknown (locationRecord 0) (serviceRecord 0) := by
  simp only [classify3A] at h ⊢
  rcases h with h | h
  · rw [h]
    rfl
  · rw [h]
    rfl

end

theorem locationRecord_zero : locationRecord 0 = ⟨0, false, false, false, false, false, false⟩ := by decide

theorem serviceRecord_zero : serviceRecord 0 = ⟨0, 0, 0, 0, 0⟩ := by decide

/-! ### The statements -/

/-- Settles O54: one class lemma for each variant, and the records of the zero word are zeroed. -/
theorem announcementClassifier : Obligations.AnnouncementClassifier := by
  intro y s
  refine ⟨_, _, exec_tClass3A y s, withOwn_answer _ s, rfl, rfl, rfl, classify3A_cls_of_variant_zero,
    classify3A_cls_of_variant_one, fun hvar => ?_⟩
  rw [classify3A_cls_of_variant_unknown hvar, locationRecord_zero, serviceRecord_zero]

/-- Settles O55: the chain of tests in the statement is `classify8A` at the configured encrypted-group test, with
`tmcEvent` and `payloadChunk` written out. -/
theorem messageClassifier : Obligations.MessageClassifier := by
  intro x y z s
  exact ⟨_, _, exec_tClass8A x y z s, withOwn_answer _ s, rfl, rfl, rfl, rfl, rfl⟩

end Sys2Proof.Machine

/-! # Proofs of the statements about the unpacker (44_bit_unpacker.md)

The container is read as one stream. `streamNumber` splits at any bit and is a field of a slice between two slice
boundaries, so each branch of `Read` is the number of the next stream bits; a legal cursor stands for the position it
reads from (`normalised_of_legal`), and so one equation, `readField_cursorAt`, says what a read does at every position,
EOF included. Labels are two such reads. U.GLUE and U.FLT rewrite the stream as a whole (`streamBit_contOfStream`) and
its slices by shift and join (`extractLsb'_append_straddle`). -/

namespace Sys2Proof.Machine

/-! ### Numbers of stream bits (20_memory.md R75) -/

section
variable (c : Cont)

/-- A number of stream bits is the number of the first bits, then that of the rest. -/
theorem streamNumber_add (p a b : Nat) :
    streamNumber c p (a + b) = streamNumber c p a * 2 ^ b + streamNumber c (p + a) b := by
  induction b with
  | zero => simp [streamNumber]
  | succ b ih =>
    rw [← Nat.add_assoc, streamNumber, ih, streamNumber, Nat.pow_succ, Nat.add_assoc p a b]
    ring

theorem streamBit_le_one (p : Nat) : streamBit c p ≤ 1 := by
  unfold streamBit
  split
  · exact Bool.toNat_le _
  · exact Nat.zero_le 1

theorem streamNumber_lt (p w : Nat) : streamNumber c p w < 2 ^ w := by
  induction w with
  | zero => simp [streamNumber]
  | succ w ih =>
    have hbit := streamBit_le_one c (p + w)
    rw [streamNumber, Nat.pow_succ]
    omega

/-- Zeros stand behind the stream's end (R286). -/
theorem streamNumber_of_le {p : Nat} (hp : 128 ≤ p) (w : Nat) : streamNumber c p w = 0 := by
  induction w with
  | zero => rfl
  | succ w ih => rw [streamNumber, ih, streamBit, if_neg (by omega)]

theorem streamBit_slice {j o : Nat} (hj : j < 4) (ho : o < 32) :
    streamBit c (32 * j + o) = ((contSlice c j).getLsbD (31 - o)).toNat := by
  rw [streamBit, if_pos (by omega), show (32 * j + o) / 32 = j by omega, show (32 * j + o) % 32 = o by omega]

/-- Between two slice boundaries the stream bits are a field of the slice. -/
theorem streamNumber_slice {j o n : Nat} (hj : j < 4) (hn : o + n ≤ 32) :
    streamNumber c (32 * j + o) n = ((contSlice c j).extractLsb' (32 - o - n) n).toNat := by
  induction n with
  | zero => simp [streamNumber]
  | succ n ih =>
    have hstart : 32 - o - n = 31 - (o + n) + 1 := by omega
    rw [streamNumber, ih (by omega), Nat.add_assoc, streamBit_slice c hj (by omega), hstart,
      show 32 - o - (n + 1) = 31 - (o + n) by omega, ← BitVec.testBit_toNat, Nat.toNat_testBit,
      BitVec.extractLsb'_toNat, BitVec.extractLsb'_toNat, Nat.shiftRight_eq_div_pow, Nat.shiftRight_eq_div_pow,
      Nat.pow_succ, ← Nat.div_div_eq_div_mul, Nat.pow_succ', Nat.mod_mul]
    omega

end

/-! ### Words a read puts together (R284, R288) -/

theorem setWidth_shiftLeft_eq_ofNat {n w : Nat} (v : BitVec n) (k : Nat) :
    v.setWidth w <<< k = BitVec.ofNat w (v.toNat * 2 ^ k) := by
  apply BitVec.eq_of_toNat_eq
  simp [Nat.shiftLeft_eq]

theorem toNat_append_eq_add {m n : Nat} (x : BitVec m) (y : BitVec n) :
    (x ++ y).toNat = x.toNat * 2 ^ n + y.toNat := by
  rw [BitVec.toNat_append, ← Nat.shiftLeft_add_eq_or_of_lt y.isLt, Nat.shiftLeft_eq]

/-! ### Cursors and positions (R280, R283, R285) -/

theorem cursorAt_of_le {p : Nat} (h : 128 ≤ p) : cursorAt p = eofCursor := if_neg (by omega)

theorem cursorAt_slice {j o : Nat} (hj : j < 4) (ho : o < 32) :
    cursorAt (32 * j + o) = { bitIndex := BitVec.ofNat 5 (31 - o), sliceIndex := BitVec.ofNat 3 (j + 1) } := by
  rw [cursorAt, if_pos (by omega), show (32 * j + o) % 32 = o by omega, show (32 * j + o) / 32 = j by omega]

theorem cursorAt_bitIndex {p : Nat} (h : p < 128) : (cursorAt p).bitIndex.toNat = 31 - p % 32 := by
  rw [cursorAt, if_pos h]
  exact Nat.mod_eq_of_lt (by omega)

theorem cursorAt_sliceIndex {p : Nat} (h : p < 128) : (cursorAt p).sliceIndex.toNat = p / 32 + 1 := by
  rw [cursorAt, if_pos h]
  exact Nat.mod_eq_of_lt (by omega)

theorem position_cursorAt (p : Nat) : position (cursorAt p) = min p 128 := by
  rcases Nat.lt_or_ge p 128 with h | h
  · rw [position, cursorAt_sliceIndex h, cursorAt_bitIndex h]
    repeat' split
    all_goals omega
  · rw [cursorAt_of_le h]
    exact (min_eq_right h).symm

/-- A legal cursor, normalised, is the one that stands at its position: of the 256 cursor values, each legal one. -/
theorem normalised_of_legal {k : Cursor} (h : legalCursor k = true) : normalised k = cursorAt (position k) := by
  revert h
  obtain ⟨b, i⟩ := k
  revert b i
  decide

theorem normalised_cursorAt (p : Nat) : normalised (cursorAt p) = cursorAt p := by
  refine if_neg fun ⟨hs, _⟩ => ?_
  rcases Nat.lt_or_ge p 128 with h | h
  · have hsi := cursorAt_sliceIndex h
    rw [hs] at hsi
    exact absurd hsi (by simp)
  · rw [cursorAt_of_le h] at hs
    exact absurd hs (by decide)

theorem atEof_cursorAt_of_lt {p : Nat} (h : p < 128) : atEof (cursorAt p) = false := by
  have hsi := cursorAt_sliceIndex h
  refine beq_eq_false_iff_ne.2 fun h6 => ?_
  rw [h6, show (6 : BitVec 3).toNat = 6 from rfl] at hsi
  omega

/-- The step to the next slice, or past the fourth (R285). -/
theorem advanced_eq_cursorAt {j : Nat} (hj : j < 4) :
    advanced (BitVec.ofNat 3 (j + 1)) = cursorAt (32 * (j + 1)) := by
  interval_cases j <;> rfl

/-! ### One read (R284 to R288) -/

/-- At EOF, whatever the bit index, a read returns zero and stays (R287). -/
theorem readField_atEof (c : Cont) {k : Cursor} (h : k.sliceIndex = 6) (size : Nat) : readField c k size = (0, k) := by
  have hn : normalised k = k := if_neg fun ⟨h0, _⟩ => absurd (h.symm.trans h0) (by decide)
  have he : atEof k = true := by simp [atEof, h]
  simp only [readField, hn, he, if_true]

/-- A read depends on the cursor by its position alone. -/
theorem readField_of_legal (c : Cont) {k : Cursor} (h : legalCursor k = true) (size : Nat) :
    readField c k size = readField c (cursorAt (position k)) size := by
  unfold readField
  rw [normalised_cursorAt, normalised_of_legal h]

/-- A read from bit `o` of slice `j` on: inside the slice a field of it; across its end the low bits of the slice before
the high bits of the next; past the end of the last slice the bits that are left, and zeros (R286). -/
theorem readField_slice (c : Cont) {j o size : Nat} (hj : j < 4) (ho : o < 32) (h16 : size ≤ 16) :
    readField c (cursorAt (32 * j + o)) size =
      if o + size ≤ 32 then
        (((contSlice c j).extractLsb' (32 - o - size) size).setWidth 16 <<< (16 - size), cursorAt (32 * j + o + size))
      else if j = 3 then
        (((contSlice c j).extractLsb' 0 (32 - o)).setWidth 16 <<< (size - (32 - o)) <<< (16 - size), eofCursor)
      else
        (((contSlice c j).extractLsb' 0 (32 - o) ++
            (contSlice c (j + 1)).extractLsb' (32 - (size - (32 - o))) (size - (32 - o))).setWidth 16 <<< (16 - size),
          cursorAt (32 * j + o + size)) := by
  have hb : (BitVec.ofNat 5 (31 - o)).toNat = 31 - o := Nat.mod_eq_of_lt (by omega)
  have hs : (BitVec.ofNat 3 (j + 1)).toNat = j + 1 := Nat.mod_eq_of_lt (by omega)
  have he : ¬atEof (cursorAt (32 * j + o)) = true := by simp [atEof_cursorAt_of_lt (show 32 * j + o < 128 by omega)]
  have h4 : BitVec.ofNat 3 (j + 1) = 4 ↔ j = 3 := by
    rw [← BitVec.toNat_inj, hs, show (4 : BitVec 3).toNat = 4 from rfl]
    omega
  unfold readField
  rw [normalised_cursorAt]
  dsimp only
  rw [if_neg he, cursorAt_slice hj ho]
  dsimp only
  rw [hb, hs, show 31 - o + 1 = 32 - o by omega]
  by_cases hin : o + size ≤ 32
  · rw [if_pos (by omega), if_pos hin]
    refine Prod.ext rfl ?_
    dsimp only
    split
    · rw [advanced_eq_cursorAt hj]
      congr 1
      omega
    · rw [Nat.add_assoc, cursorAt_slice hj (by omega), show 31 - (o + size) = 31 - o - size by omega]
  rw [if_neg (by omega), if_neg hin]
  by_cases hlast : j = 3
  · rw [if_pos (h4.2 hlast), if_pos hlast]
    rfl
  · rw [if_neg (mt h4.1 hlast), if_neg hlast, BitVec.setWidth_append_eq_shiftLeft_setWidth_or,
      show 32 * j + o + size = 32 * (j + 1) + (size - (32 - o)) by omega, cursorAt_slice (by omega) (by omega)]
    simp [BitVec.ofNat_add]

/-- At every stream position a read returns the next stream bits at the top of 16 bits and moves behind them. -/
theorem readField_cursorAt (c : Cont) (p : Nat) {size : Nat} (h16 : size ≤ 16) :
    readField c (cursorAt p) size =
      (BitVec.ofNat 16 (streamNumber c p size * 2 ^ (16 - size)), cursorAt (p + size)) := by
  rcases Nat.lt_or_ge p 128 with hp | hp
  · obtain ⟨j, o, hj, ho, rfl⟩ : ∃ j o, j < 4 ∧ o < 32 ∧ p = 32 * j + o :=
      ⟨p / 32, p % 32, by omega, by omega, by omega⟩
    rw [readField_slice c hj ho h16]
    by_cases hin : o + size ≤ 32
    · rw [if_pos hin, setWidth_shiftLeft_eq_ofNat, streamNumber_slice c hj hin]
    have hsplit : streamNumber c (32 * j + o) size =
        ((contSlice c j).extractLsb' 0 (32 - o)).toNat * 2 ^ (size - (32 - o)) +
          streamNumber c (32 * (j + 1) + 0) (size - (32 - o)) := by
      have h := streamNumber_add c (32 * j + o) (32 - o) (size - (32 - o))
      have hlow := streamNumber_slice c hj (show o + (32 - o) ≤ 32 by omega)
      rwa [show 32 - o + (size - (32 - o)) = size by omega, hlow, Nat.sub_self,
        show 32 * j + o + (32 - o) = 32 * (j + 1) + 0 by omega] at h
    rw [if_neg hin, hsplit]
    by_cases hlast : j = 3
    · subst hlast
      rw [if_pos rfl, streamNumber_of_le c (by omega), cursorAt_of_le (by omega), ← BitVec.shiftLeft_add,
        setWidth_shiftLeft_eq_ofNat, Nat.pow_add, Nat.add_zero, Nat.mul_assoc]
    · rw [if_neg hlast, setWidth_shiftLeft_eq_ofNat, toNat_append_eq_add, streamNumber_slice c (by omega) (by omega),
        Nat.sub_zero]
  · rw [cursorAt_of_le hp, readField_atEof c rfl, streamNumber_of_le c hp, cursorAt_of_le (by omega), Nat.zero_mul]
    rfl

/-- A read at a legal cursor. -/
theorem readField_eq (c : Cont) {k : Cursor} (hk : legalCursor k = true) {size : Nat} (h16 : size ≤ 16) :
    readField c k size =
      (BitVec.ofNat 16 (streamNumber c (position k) size * 2 ^ (16 - size)), cursorAt (position k + size)) := by
  rw [readField_of_legal c hk, readField_cursorAt c _ h16]

/-! ### One label (R290, R291) -/

/-- The next stream bits fit above the zeros of a read. -/
theorem streamNumber_mul_lt (c : Cont) (p : Nat) {w : Nat} (h16 : w ≤ 16) :
    streamNumber c p w * 2 ^ (16 - w) < 2 ^ 16 :=
  calc streamNumber c p w * 2 ^ (16 - w) < 2 ^ w * 2 ^ (16 - w) :=
        Nat.mul_lt_mul_of_pos_right (streamNumber_lt c p w) (Nat.two_pow_pos _)
    _ = 2 ^ 16 := by rw [← Nat.pow_add, Nat.add_sub_cancel' h16]

theorem readNumber_cursorAt (c : Cont) (p : Nat) {w : Nat} (h16 : w ≤ 16) :
    readNumber c (cursorAt p) w = (BitVec.ofNat 16 (streamNumber c p w), cursorAt (p + w)) := by
  by_cases hw : w = 0
  · subst hw
    rfl
  have hshift : BitVec.ofNat 16 (streamNumber c p w * 2 ^ (16 - w)) >>> (16 - w) =
      BitVec.ofNat 16 (streamNumber c p w) := by
    have hlt : streamNumber c p w < 2 ^ 16 :=
      (streamNumber_lt c p w).trans_le (Nat.pow_le_pow_right (by decide) h16)
    apply BitVec.eq_of_toNat_eq
    rw [BitVec.toNat_ushiftRight, BitVec.toNat_ofNat, BitVec.toNat_ofNat,
      Nat.mod_eq_of_lt (streamNumber_mul_lt c p h16), Nat.shiftRight_eq_div_pow,
      Nat.mul_div_cancel _ (Nat.two_pow_pos _), Nat.mod_eq_of_lt hlt]
  rw [readNumber, if_neg hw, readField_cursorAt c p h16, hshift]

/-- A label depends on the cursor by its position alone. -/
theorem readLabel_of_legal (c : Cont) {k : Cursor} (h : legalCursor k = true) :
    readLabel c k = readLabel c (cursorAt (position k)) := by
  have htype : readNumber c k 4 = readNumber c (cursorAt (position k)) 4 := by
    rw [readNumber, readNumber, readField_of_legal c h]
    rfl
  simp only [readLabel, htype]

/-- Type 15 alone has no width (30_encoding.md R124). -/
theorem labelWidth_eq (t : BitVec 4) : labelWidth t = if t = 15 then none else some (widthOfType t.toNat) := by
  revert t
  decide

theorem widthOfType_le (t : Nat) : widthOfType t ≤ 16 := by
  unfold widthOfType
  repeat' split
  all_goals omega

/-- The type of the label at a stream position (R290). -/
def labelType (c : Cont) (p : Nat) : Nat := streamNumber c p 4

/-- The value of the label at a stream position; type 15 has none (R290). -/
def labelValue (c : Cont) (p : Nat) : Nat :=
  if labelType c p = 15 then 0 else streamNumber c (p + 4) (widthOfType (labelType c p))

/-- The cursor behind the label at a stream position: EOF after type 15 and after a zero duration (R290). -/
def cursorAfterLabel (c : Cont) (p : Nat) : Cursor :=
  if labelType c p = 15 ∨ (labelType c p = 0 ∧ labelValue c p = 0) then eofCursor
  else cursorAt (p + 4 + widthOfType (labelType c p))

theorem labelType_lt (c : Cont) (p : Nat) : labelType c p < 16 := streamNumber_lt c p 4

theorem labelValue_lt (c : Cont) (p : Nat) : labelValue c p < 2 ^ 16 := by
  unfold labelValue
  split
  · decide
  · exact (streamNumber_lt c _ _).trans_le (Nat.pow_le_pow_right (by decide) (widthOfType_le _))

theorem readLabel_cursorAt (c : Cont) (p : Nat) :
    readLabel c (cursorAt p) =
      (BitVec.ofNat 4 (labelType c p), BitVec.ofNat 16 (labelValue c p), cursorAfterLabel c p) := by
  have htype : (readNumber c (cursorAt p) 4).1.setWidth 4 = BitVec.ofNat 4 (labelType c p) := by
    rw [readNumber_cursorAt c p (by decide)]
    apply BitVec.eq_of_toNat_eq
    simp [labelType]
  have hcur : (readNumber c (cursorAt p) 4).2 = cursorAt (p + 4) := by rw [readNumber_cursorAt c p (by decide)]
  have hnat : (BitVec.ofNat 4 (labelType c p)).toNat = labelType c p := Nat.mod_eq_of_lt (labelType_lt c p)
  have h15 : BitVec.ofNat 4 (labelType c p) = 15 ↔ labelType c p = 15 := by
    rw [← BitVec.toNat_inj, hnat]
    rfl
  have hends : endsStream (BitVec.ofNat 4 (labelType c p)) (BitVec.ofNat 16 (labelValue c p)) = true ↔
      labelType c p = 0 ∧ labelValue c p = 0 := by
    rw [endsStream, Bool.and_eq_true, beq_iff_eq, beq_iff_eq, ← BitVec.toNat_inj, ← BitVec.toNat_inj, hnat,
      BitVec.toNat_ofNat, Nat.mod_eq_of_lt (labelValue_lt c p)]
    rfl
  simp only [readLabel, htype, hcur, labelWidth_eq, h15, hnat]
  by_cases ht : labelType c p = 15
  · simp [ht, labelValue, cursorAfterLabel]
  · have hv : labelValue c p = streamNumber c (p + 4) (widthOfType (labelType c p)) := if_neg ht
    simp [ht, readNumber_cursorAt c (p + 4) (widthOfType_le _), ← hv, hends, cursorAfterLabel]

/-- At EOF, whatever the bit index, both reads of a label are zero, and a zero duration ends the stream (R291). -/
theorem readLabel_atEof (c : Cont) {k : Cursor} (h : k.sliceIndex = 6) : readLabel c k = (0, 0, eofCursor) := by
  have hread (w : Nat) : readNumber c k w = (0, k) := by
    unfold readNumber
    split
    · rfl
    · simp [readField_atEof c h]
  simp only [readLabel, hread]
  rfl

theorem readable_iff {k : Cursor} : readable k = true ↔ legalCursor k = true ∨ k.sliceIndex = 6 := by
  rw [readable, Bool.or_eq_true, atEof, beq_iff_eq]

/-- A label at a legal cursor or at EOF. -/
theorem readLabel_eq (c : Cont) {k : Cursor} (hk : legalCursor k = true ∨ k.sliceIndex = 6) :
    readLabel c k =
      (BitVec.ofNat 4 (labelType c (position k)), BitVec.ofNat 16 (labelValue c (position k)),
        cursorAfterLabel c (position k)) := by
  rcases hk with hk | hk
  · rw [readLabel_of_legal c hk, readLabel_cursorAt]
  · have hpos : position k = 128 := by simp [position, hk]
    rw [hpos, ← readLabel_cursorAt, cursorAt_of_le le_rfl, readLabel_atEof c hk, readLabel_atEof c rfl]

/-! ### The container rewritten as a stream (R278, R296) -/

theorem streamBit_eq_zero {c : Cont} {p : Nat} (h : 128 ≤ p) : streamBit c p = 0 := if_neg (by omega)

theorem contSlice_contOfStream (w : BitVec 128) {j : Nat} (hj : j < 4) :
    contSlice (contOfStream w) j = w.extractLsb' (96 - 32 * j) 32 := by
  interval_cases j <;> rfl

theorem streamBit_contOfStream (w : BitVec 128) {p : Nat} (hp : p < 128) :
    streamBit (contOfStream w) p = (w.getLsbD (127 - p)).toNat := by
  have hin : 31 - p % 32 < 32 := by omega
  rw [streamBit, if_pos hp, contSlice_contOfStream w (by omega), BitVec.getLsbD_extractLsb', decide_eq_true hin,
    Bool.true_and, show 96 - 32 * (p / 32) + (31 - p % 32) = 127 - p by omega]

/-- The container is the slices of its own stream. -/
theorem contOfStream_contStream (c : Cont) : contOfStream (contStream c) = c := by
  simp (disch := omega) only [contOfStream, contStream, BitVec.extractLsb'_append_eq_of_le,
    BitVec.extractLsb'_append_eq_of_add_le, Nat.reduceSub, BitVec.extractLsb'_eq_self]

theorem streamBit_eq (c : Cont) {p : Nat} (hp : p < 128) :
    streamBit c p = ((contStream c).getLsbD (127 - p)).toNat := by
  rw [← streamBit_contOfStream (contStream c) hp, contOfStream_contStream]

/-- A field across the join of two words is the upper word shifted up and joined with the top bits of the lower. -/
theorem extractLsb'_append_straddle {m n w s k : Nat} (x : BitVec m) (y : BitVec n) (h : s + k = n) :
    (x ++ y).extractLsb' s w = (x.setWidth w <<< k) ||| y.extractLsb' s w := by
  ext i hi
  by_cases hik : i < k
  · have hn : s + i < n := by omega
    simp [BitVec.getLsbD_append, hik, hn]
  · have hn : ¬s + i < n := by omega
    have hi' : s + i - n = i - k := by omega
    simp [BitVec.getLsbD_append, hik, hn, hi', BitVec.getLsbD_of_ge y (s + i) (by omega)]

theorem extractLsb'_shiftLeft_of_le {n w s k : Nat} (x : BitVec n) (hk : k ≤ s) (hn : s + w ≤ n) :
    (x <<< k).extractLsb' s w = x.extractLsb' (s - k) w := by
  refine BitVec.eq_of_getLsbD_eq fun i hi => ?_
  have hin : s + i < n := by omega
  have hik : ¬s + i < k := by omega
  simp only [BitVec.getLsbD_extractLsb', BitVec.getLsbD_shiftLeft, hi, hin, hik, decide_true, decide_false,
    Bool.true_and, Bool.not_false, Nat.sub_add_comm hk]

theorem getLsbD_chunkMask (i : Nat) : (0x0FFFFFFF#32).getLsbD i = decide (i < 28) := by
  rw [show 0x0FFFFFFF#32 = (BitVec.allOnes 28).setWidth 32 from rfl, BitVec.getLsbD_setWidth,
    BitVec.getLsbD_allOnes, ← Bool.decide_and, decide_eq_decide]
  omega

theorem getLsbD_sliceChunk (x : Slice) (i : Nat) : (sliceChunk x).getLsbD i = (decide (i < 28) && x.getLsbD i) := by
  rw [sliceChunk, BitVec.getLsbD_extractLsb', Nat.zero_add]

theorem extractLsb'_sliceChunk (x : Slice) (k : Nat) : (sliceChunk x).extractLsb' k 32 = (x &&& 0x0FFFFFFF) >>> k := by
  refine BitVec.eq_of_getLsbD_eq fun i hi => ?_
  simp [getLsbD_sliceChunk, getLsbD_chunkMask, hi, Bool.and_comm]

/-- Shifted up by 4 bits or more, a slice keeps none of its bits 31:28. -/
theorem sliceChunk_shiftLeft (y : Slice) {k : Nat} (hk : 4 ≤ k) : (sliceChunk y).setWidth 32 <<< k = y <<< k := by
  refine BitVec.eq_of_getLsbD_eq fun i hi => ?_
  have h28 : i - k < 28 := by omega
  simp only [BitVec.getLsbD_shiftLeft, BitVec.getLsbD_setWidth, getLsbD_sliceChunk, h28, decide_true, Bool.true_and]
  congr 1
  rw [decide_eq_true (show i - k < 32 by omega), Bool.true_and]

/-- What stands above a chunk is shifted out with bits 31:28. -/
theorem append_sliceChunk_shiftLeft {m : Nat} (x : BitVec m) (y : Slice) {k : Nat} (hk : 4 ≤ k) :
    (x ++ sliceChunk y).setWidth 32 <<< k = y <<< k := by
  rw [← sliceChunk_shiftLeft y hk]
  refine BitVec.eq_of_getLsbD_eq fun i hi => ?_
  have h28 : i - k < 28 := by omega
  simp only [BitVec.getLsbD_shiftLeft, BitVec.getLsbD_setWidth, getLsbD_append_of_lt h28]

/-- Slice by slice U.GLUE shifts each chunk up and joins the top of the next one to it (R278). -/
theorem glued_slices (c : Cont) :
    (glued c).c0 = (c.c0 <<< 4) ||| ((c.c1 &&& 0x0FFFFFFF) >>> 24) ∧
    (glued c).c1 = (c.c1 <<< 8) ||| ((c.c2 &&& 0x0FFFFFFF) >>> 20) ∧
    (glued c).c2 = (c.c2 <<< 12) ||| ((c.c3 &&& 0x0FFFFFFF) >>> 16) ∧
    (glued c).c3 = c.c3 <<< 16 := by
  simp (disch := omega) only [glued, contOfStream, BitVec.extractLsb'_append_eq_of_le, Nat.reduceSub]
  refine ⟨?_, ?_, ?_, ?_⟩
  · rw [extractLsb'_append_straddle (k := 4) _ _ rfl, sliceChunk_shiftLeft _ (by decide), extractLsb'_sliceChunk]
  · rw [extractLsb'_append_straddle (k := 8) _ _ rfl, append_sliceChunk_shiftLeft _ _ (by decide),
      extractLsb'_sliceChunk]
  · rw [extractLsb'_append_straddle (k := 12) _ _ rfl, append_sliceChunk_shiftLeft _ _ (by decide),
      extractLsb'_sliceChunk]
  · rw [extractLsb'_append_straddle (k := 16) _ _ rfl, append_sliceChunk_shiftLeft _ _ (by decide)]
    simp

/-- Slice by slice U.FLT shifts the low half up and joins the next slice's high half to it (R296). -/
theorem fltShifted_slices (c : Cont) :
    (fltShifted c).c0 = (c.c0 <<< 16) ||| (c.c1 >>> 16) ∧
    (fltShifted c).c1 = (c.c1 <<< 16) ||| (c.c2 >>> 16) ∧
    (fltShifted c).c2 = (c.c2 <<< 16) ||| (c.c3 >>> 16) ∧
    (fltShifted c).c3 = c.c3 <<< 16 := by
  have hright (y : Slice) : y.extractLsb' 16 32 = y >>> 16 := BitVec.eq_of_getLsbD_eq fun i hi => by simp [hi]
  simp (disch := omega) only [fltShifted, contOfStream, contStream, extractLsb'_shiftLeft_of_le,
    BitVec.extractLsb'_append_eq_of_le, Nat.reduceSub]
  refine ⟨?_, ?_, ?_, ?_⟩
  · rw [extractLsb'_append_straddle (k := 16) _ _ rfl, hright, BitVec.setWidth_eq]
  · rw [extractLsb'_append_straddle (k := 16) _ _ rfl, hright, BitVec.setWidth_append_eq_right]
  · rw [extractLsb'_append_straddle (k := 16) _ _ rfl, hright, BitVec.setWidth_append_eq_right]
  · rw [← BitVec.setWidth_eq_extractLsb' (by decide), BitVec.setWidth_shiftLeft_of_le (by decide)]
    exact congrArg (fun x : Slice => x <<< 16) BitVec.setWidth_append_eq_right

/-- U.GLUE's stream is the four chunks one after another, and zeros (R278). -/
theorem streamBit_glued (c : Cont) {p : Nat} (hp : p < 128) :
    streamBit (glued c) p = if p < 112 then ((contSlice c (p / 28)).getLsbD (27 - p % 28)).toNat else 0 := by
  have hchunk (x : Slice) {i : Nat} (hi : i = 27 - p % 28) : (sliceChunk x).getLsbD i = x.getLsbD (27 - p % 28) := by
    rw [getLsbD_sliceChunk, decide_eq_true (by omega), Bool.true_and, hi]
  rw [glued, streamBit_contOfStream _ hp]
  split
  · rcases (by omega : p / 28 = 0 ∨ p / 28 = 1 ∨ p / 28 = 2 ∨ p / 28 = 3) with hj | hj | hj | hj <;> rw [hj] <;>
      simp (disch := omega) only [getLsbD_append_of_le, getLsbD_append_of_lt, hchunk, contSlice]
  · rw [getLsbD_append_of_lt (by omega)]
    simp

/-- U.FLT's stream is the old one from bit 16 on (R296). -/
theorem streamBit_fltShifted (c : Cont) (p : Nat) : streamBit (fltShifted c) p = streamBit c (p + 16) := by
  rcases Nat.lt_or_ge p 128 with h | h
  · rw [fltShifted, streamBit_contOfStream _ h, BitVec.getLsbD_shiftLeft]
    rcases Nat.lt_or_ge p 112 with h112 | h112
    · have hge : ¬127 - p < 16 := by omega
      have hlt : 127 - p < 128 := by omega
      rw [streamBit_eq c (by omega), decide_eq_true hlt, decide_eq_false hge,
        show 127 - (p + 16) = 127 - p - 16 by omega]
      rfl
    · rw [streamBit_eq_zero (by omega), decide_eq_true (show 127 - p < 16 by omega), Bool.not_true, Bool.and_false,
        Bool.false_and]
      rfl
  · rw [streamBit_eq_zero h, streamBit_eq_zero (by omega)]

/-! ### The operations of the unpacker, run -/

theorem exec_uRead_badSize {size : BitVec 5} (h : size.toNat = 0 ∨ 16 < size.toNat) (s : State) :
    exec (.uRead size) s = .refused .badReadSize :=
  if_neg (by simp [legalReadSize]; omega)

theorem exec_uRead_readable {size : BitVec 5} {s : State} (h1 : 1 ≤ size.toNat) (h16 : size.toNat ≤ 16)
    (hk : legalCursor s.cur = true ∨ s.cur.sliceIndex = 6) :
    exec (.uRead size) s =
      .next (answer (.bits (readField s.cont s.cur size.toNat).1)
        { s with cur := (readField s.cont s.cur size.toNat).2 }) := by
  simp only [exec, execURead, legalReadSize, h1, h16, and_self, decide_true, if_true, readable_iff.2 hk]

theorem exec_uLabel_readable {s : State} (hk : legalCursor s.cur = true ∨ s.cur.sliceIndex = 6) :
    exec .uLabel s =
      .next (answer (.label (!atEof (cursorAfterLabel s.cont (position s.cur)))
          (BitVec.ofNat 4 (labelType s.cont (position s.cur)))
          (BitVec.ofNat 16 (labelValue s.cont (position s.cur))))
        { s with cur := cursorAfterLabel s.cont (position s.cur) }) := by
  simp only [exec, execULabel, readable_iff.2 hk, if_true, readLabel_eq s.cont hk]

/-- U.READ at EOF answers zero and changes nothing (R287). -/
theorem exec_uRead_atEof {size : BitVec 5} {s : State} (h1 : 1 ≤ size.toNat) (h16 : size.toNat ≤ 16)
    (hk : s.cur.sliceIndex = 6) : exec (.uRead size) s = .next (answer (.bits 0) s) := by
  rw [exec_uRead_readable h1 h16 (.inr hk), readField_atEof _ hk]

/-- U.LABEL at EOF answers no label (R291). -/
theorem exec_uLabel_atEof {s : State} (hk : s.cur.sliceIndex = 6) :
    exec .uLabel s = .next (answer (.label false 0 0) { s with cur := eofCursor }) := by
  simp only [exec, execULabel, readable_iff.2 (.inr hk), if_true, readLabel_atEof s.cont hk]
  rfl

theorem exec_uFlt_of_match {w : Block} (h : w.extractLsb' 10 6 = Config.fltMagic) (s : State) :
    exec (.uFlt w) s =
      .next (answer (.flt true (fltCountry w) (fltTable w) (s.cont.c0.extractLsb' 16 16))
        { s with cont := fltShifted s.cont }) :=
  congrArg Host.Outcome.next (if_pos (beq_iff_eq.2 h))

theorem exec_uFlt_of_mismatch {w : Block} (h : w.extractLsb' 10 6 ≠ Config.fltMagic) (s : State) :
    exec (.uFlt w) s = .next (answer (.flt false 0 0 0) s) :=
  congrArg Host.Outcome.next (if_neg (mt beq_iff_eq.1 h))

/-! ### The cursor never moves back (R280) -/

theorem position_le_of_legal {k : Cursor} (h : legalCursor k = true) : position k ≤ 128 := by
  simp only [legalCursor, decide_eq_true_eq] at h
  unfold position
  repeat' split
  all_goals omega

theorem position_le_cursorAt {k : Cursor} (h : legalCursor k = true) (n : Nat) :
    position k ≤ position (cursorAt (position k + n)) := by
  have := position_le_of_legal h
  rw [position_cursorAt]
  omega

theorem position_le_cursorAfterLabel (c : Cont) {k : Cursor} (h : legalCursor k = true) :
    position k ≤ position (cursorAfterLabel c (position k)) := by
  unfold cursorAfterLabel
  split
  · exact position_le_of_legal h
  · rw [Nat.add_assoc]
    exact position_le_cursorAt h _

theorem cur_not_mem_slowRegs (var : BitVec 3) : Reg.cur ∉ slowRegs var := by
  revert var
  decide

theorem cur_not_mem_eonRegs (var : BitVec 4) : Reg.cur ∉ eonRegs var := by
  revert var
  decide

/-- Apart from the operations that set the cursor, only the two reads write it (R301). -/
theorem cur_mem_writtenBy {i : Instr} (hb : movesCursorBack i = false) (h : Reg.cur ∈ writtenBy i) :
    (∃ size, i = .uRead size) ∨ i = .uLabel := by
  cases i with
  | uRead size => exact .inl ⟨size, rfl⟩
  | uLabel => exact .inr rfl
  | uClear | uRestart | uSetCur => cases hb
  | group1A => exact absurd h (by simp [writtenBy, commonRegs, cur_not_mem_slowRegs])
  | group14A => exact absurd h (by simp [writtenBy, commonRegs, cur_not_mem_eonRegs])
  | _ => exact absurd h (by simp [writtenBy, commonRegs])

/-! ### The unpacker and the rest of the block, apart (R301)

An operation outside the unpacker commutes with `State.withUnpacker`, since every update it is made of does. -/

/-- `s` beside another container and another cursor. -/
def State.withUnpacker (s : State) (c : Cont) (k : Cursor) : State := { s with cont := c, cur := k }

theorem nextState?_mapNext (f : State → State) (o : Host.Outcome State Fault Refusal) :
    nextState? (mapNext f o) = (nextState? o).map f := by
  cases o <;> rfl

theorem refusal?_mapNext (f : State → State) (o : Host.Outcome State Fault Refusal) :
    refusal? (mapNext f o) = refusal? o := by
  cases o <;> rfl

section WithUnpacker

variable (c : Cont) (k : Cursor) (s : State)

@[simp] theorem withUnpacker_rtToggle : (s.withUnpacker c k).rtToggle = s.rtToggle := rfl
@[simp] theorem withUnpacker_even : (s.withUnpacker c k).even = s.even := rfl
@[simp] theorem withUnpacker_cont : (s.withUnpacker c k).cont = c := rfl
@[simp] theorem withUnpacker_cur : (s.withUnpacker c k).cur = k := rfl

theorem runRest_withUnpacker (rest : Rest) :
    runRest rest (s.withUnpacker c k) = (runRest rest s).withUnpacker c k := by
  cases rest <;> rfl

theorem raiseEvent_withUnpacker (e : Option Pending) :
    raiseEvent e (s.withUnpacker c k) = (raiseEvent e s).withUnpacker c k := by
  cases e with
  | none => rfl
  | some p =>
    simp only [raiseEvent, emit, withUnpacker_even, runRest_withUnpacker]
    split <;> rfl

theorem groupEvent_withUnpacker (i : Instr) : groupEvent (s.withUnpacker c k) i = groupEvent s i := by
  cases i <;> rfl

theorem groupWrites_withUnpacker (i : Instr) :
    groupWrites (s.withUnpacker c k) i = (groupWrites s i).withUnpacker c k := by
  cases i with
  | group1A => simp only [groupWrites, slowUpdate]; split <;> rfl
  | group2A h tog | group2B h tog =>
    by_cases hf : flips s.rtToggle tog = true <;> simp only [groupWrites, withUnpacker_rtToggle, hf] <;> rfl
  | group3A => simp only [groupWrites, slotUpdate]; split <;> rfl
  | group4A =>
    simp only [groupWrites, clockUpdate]
    split
    · rfl
    · split <;> rfl
  | group14A => simp only [groupWrites, eonVariantUpdate]; split <;> rfl
  | _ => rfl

theorem whenIdle_withUnpacker {f : State → State} (h : f (s.withUnpacker c k) = (f s).withUnpacker c k) :
    whenIdle f (s.withUnpacker c k) = mapNext (·.withUnpacker c k) (whenIdle f s) := by
  cases hp : s.pending with
  | none => rw [whenIdle_idle f hp, whenIdle_idle f (by exact hp), h]; rfl
  | some p => rw [whenIdle_pending f hp, whenIdle_pending f (by exact hp)]; rfl

/-- An operation outside the unpacker neither reads nor writes the container and the cursor. -/
theorem exec_withUnpacker {i : Instr} (hi : isUnpacker i = false) :
    exec i (s.withUnpacker c k) = mapNext (·.withUnpacker c k) (exec i s) := by
  by_cases hg : isGroup i = true
  · rw [exec_group hg, exec_group hg]
    refine whenIdle_withUnpacker c k s ?_
    rw [groupEvent_withUnpacker, groupWrites_withUnpacker, raiseEvent_withUnpacker]
  cases i with
  | reset =>
    simp only [exec, execReset]
    exact whenIdle_withUnpacker c k s rfl
  | evCfg mask =>
    simp only [exec, execEvCfg]
    exact whenIdle_withUnpacker c k s rfl
  | qText => simp only [exec, execQText]; split <;> rfl
  | qStatus | qTime | cDecrypt | cDecryptX | cLookup | tClass3A | tClass8A => rfl
  | uClear | uLoad | uGlue | uFlt | uRestart | uSetCur | uRead | uLabel => cases hi
  | _ => exact absurd rfl hg

end WithUnpacker

/-- An operation of the unpacker reads the container and the cursor alone, and writes those and the answer. -/
theorem exec_unpacker {i : Instr} (hi : isUnpacker i = true) (s u : State) :
    exec i (u.withUnpacker s.cont s.cur) =
      mapNext (fun t => answer t.result (u.withUnpacker t.cont t.cur)) (exec i s) := by
  cases i with
  | uClear | uLoad | uGlue | uRestart => rfl
  | uFlt => simp only [exec, execUFlt, withUnpacker_cont]; split <;> rfl
  | uSetCur => simp only [exec, execUSetCur]; split <;> rfl
  | uRead =>
    by_cases hr : readable s.cur = true <;> simp only [exec, execURead, withUnpacker_cur, hr] <;> split <;> rfl
  | uLabel =>
    by_cases hr : readable s.cur = true <;> simp only [exec, execULabel, withUnpacker_cur, hr] <;> rfl
  | _ => cases hi

/-! ### The statements -/

/-- Settles O28: an operation outside the unpacker commutes with the change of container and cursor, and one of the
unpacker is a function of both. -/
theorem unpackerAndDispatcherAreIndependent : Obligations.UnpackerAndDispatcherAreIndependent := by
  intro i s
  refine ⟨fun hi c k => ?_, fun hi s' hcont hcur => ?_⟩
  · have h := exec_withUnpacker c k s hi
    exact ⟨(congrArg nextState? h).trans (nextState?_mapNext ..), (congrArg refusal? h).trans (refusal?_mapNext ..)⟩
  · have h := exec_unpacker hi s s'
    rw [← hcont, ← hcur] at h
    exact ⟨(congrArg nextState? h).trans (nextState?_mapNext ..), (congrArg refusal? h).trans (refusal?_mapNext ..)⟩

/-- Settles O37: `readField_eq` at a legal cursor, where the number of the bits fits above the zeros. -/
theorem readIsTheStream : Obligations.ReadIsTheStream := by
  intro size s
  refine ⟨fun hbad => exec_uRead_badSize hbad s, fun h1 h16 hk => ?_,
    fun h1 h16 hk => ⟨_, exec_uRead_atEof h1 h16 hk, rfl, rfl⟩⟩
  have hread := readField_eq s.cont hk h16
  refine ⟨_, _, exec_uRead_readable h1 h16 (.inl hk), rfl, ?_, congrArg Prod.snd hread, rfl⟩
  rw [hread]
  exact Nat.mod_eq_of_lt (streamNumber_mul_lt s.cont _ h16)

/-- Settles O38: `labelType`, `labelValue` and `cursorAfterLabel` are the statement's terms. -/
theorem labelReadsTheStream : Obligations.LabelReadsTheStream := by
  intro s hk
  exact ⟨_, exec_uLabel_readable hk, rfl, rfl, rfl⟩

/-- Settles O39: seven zero bits are type 0 and a value of 3 zero bits. -/
theorem sevenZeroBitsEndTheStream : Obligations.SevenZeroBitsEndTheStream := by
  intro s hk hzero
  have hsplit : streamNumber s.cont (position s.cur) 7 =
      streamNumber s.cont (position s.cur) 4 * 2 ^ 3 + streamNumber s.cont (position s.cur + 4) 3 :=
    streamNumber_add s.cont (position s.cur) 4 3
  have htype : labelType s.cont (position s.cur) = 0 := by unfold labelType; omega
  have hvalue : labelValue s.cont (position s.cur) = 0 := by
    rw [labelValue, htype]
    exact (show streamNumber s.cont (position s.cur + 4) 3 = 0 by omega)
  have hcur : cursorAfterLabel s.cont (position s.cur) = eofCursor := if_pos (.inr ⟨htype, hvalue⟩)
  refine ⟨_, exec_uLabel_readable (.inl hk), ?_, hcur, rfl⟩
  rw [answer_result, htype, hvalue, hcur]
  rfl

/-- Settles O40: both reads at EOF are zero, and a label marks EOF again. -/
theorem eofIsSticky : Obligations.EofIsSticky := by
  intro s hk
  exact ⟨fun size h1 h16 => ⟨_, exec_uRead_atEof h1 h16 hk, rfl, rfl⟩, _, exec_uLabel_atEof hk, rfl, rfl, rfl⟩

/-- Settles O42: only the two reads write the cursor, and each leaves it behind the bits it read or at EOF. -/
theorem cursorNeverMovesBack : Obligations.CursorNeverMovesBack := by
  intro i s t hb hk h
  by_cases hsame : t.cur = s.cur
  · exact (congrArg position hsame).ge
  rcases cur_mem_writtenBy hb (mem_writtenBy_of_exec (r := .cur) h hsame) with ⟨size, rfl⟩ | rfl
  · by_cases hbad : size.toNat = 0 ∨ 16 < size.toNat
    · cases (exec_uRead_badSize hbad s).symm.trans h
    · rw [exec_uRead_next h, answer_cur, readField_eq s.cont hk (by omega)]
      exact position_le_cursorAt hk _
  · cases (exec_uLabel_readable (.inl hk)).symm.trans h
    exact position_le_cursorAfterLabel s.cont hk

/-- Settles O43: the three operations as they stand, and a load by `contSlice_contSet`. -/
theorem containerSetup : Obligations.ContainerSetup := by
  intro s
  refine ⟨⟨_, rfl, fun j hj => ?_, rfl, rfl⟩, fun i chunk => ⟨_, rfl, fun j hj => ?_, rfl⟩, _, rfl, rfl, rfl⟩
  · interval_cases j <;> rfl
  · exact contSlice_contSet s.cont i (rawSlice chunk) j hj

/-- Settles O44: the statement's condition is `legalCursor` of the word's cursor. -/
theorem setCursorTakesLegalWords : Obligations.SetCursorTakesLegalWords := by
  intro c s b i
  have hlegal : legalCursor (cursorOfWord c) = decide ((i = 0 ∧ b = 0) ∨ (1 ≤ i ∧ i ≤ 4) ∨ (i = 6 ∧ b = 0)) := rfl
  split
  case isTrue h => exact ⟨_, if_pos (hlegal.trans (decide_eq_true h)), rfl, rfl⟩
  case isFalse h => exact if_neg (by simp [hlegal, h])

/-- Settles O45: the glued stream bit by bit, and slice by slice. -/
theorem gluePacksTheChunks : Obligations.GluePacksTheChunks := by
  intro s
  obtain ⟨h0, h1, h2, h3⟩ := glued_slices s.cont
  exact ⟨_, rfl, fun p hp => streamBit_glued s.cont hp, h0, h1, h2, h3, rfl⟩

/-- Settles O46: the shifted stream slice by slice and bit by bit. -/
theorem fltShiftsTheStream : Obligations.FltShiftsTheStream := by
  intro w s
  refine ⟨fun hw => ?_, fun hw => ?_⟩
  · obtain ⟨h0, h1, h2, h3⟩ := fltShifted_slices s.cont
    exact ⟨_, exec_uFlt_of_match hw s, rfl, h0, h1, h2, h3, streamBit_fltShifted s.cont, rfl⟩
  · exact ⟨_, exec_uFlt_of_mismatch hw s, rfl, rfl⟩

end Sys2Proof.Machine

/-! # Proofs of the statements about the cipher (45_cipher.md)

The cipher takes the exclusive or with the key's mask and rotates left (`cipher_eq`). Rotations over 16 bits add up
(`rotateLeft_rotateLeft`) and are linear (`rotateLeft_xor`), so two ciphers in a row are one exclusive or and one
rotation (`cipher_cipher`). They are the identity exactly when the rotations are complementary and the second mask is
the first one rotated (`cipher_inverts_iff`); and a word is the mask of some key exactly when its set bits lie in a
window of 8 (`exists_cipherMask_iff`). -/

namespace Sys2Proof.Machine

/-! ### Rotation over 16 bits (00_scope.md R10) -/

section
variable (x y : Block)

/-- A bit of a rotated word stands `r` places lower in the word, counted around. -/
theorem getLsbD_rotateLeft_block (r : Nat) {i : Nat} (hi : i < 16) :
    (x.rotateLeft r).getLsbD i = x.getLsbD ((i + (16 - r % 16)) % 16) := by
  rw [BitVec.getLsbD_rotateLeft]
  by_cases hr : i < r % 16
  · rw [decide_eq_true hr, cond_true, show (i + (16 - r % 16)) % 16 = 16 - r % 16 + i by omega]
  · rw [decide_eq_false hr, cond_false, decide_eq_true hi, Bool.true_and,
      show (i + (16 - r % 16)) % 16 = i - r % 16 by omega]

/-- Rotations add up. -/
theorem rotateLeft_rotateLeft (a b : Nat) : (x.rotateLeft a).rotateLeft b = x.rotateLeft (a + b) := by
  refine BitVec.eq_of_getLsbD_eq fun i hi => ?_
  rw [getLsbD_rotateLeft_block _ _ hi, getLsbD_rotateLeft_block _ _ (Nat.mod_lt _ (by decide)),
    getLsbD_rotateLeft_block _ _ hi]
  congr 1
  omega

theorem rotateLeft_xor (r : Nat) : (x ^^^ y).rotateLeft r = x.rotateLeft r ^^^ y.rotateLeft r := by
  refine BitVec.eq_of_getLsbD_eq fun i hi => ?_
  simp only [BitVec.getLsbD_xor, getLsbD_rotateLeft_block _ _ hi]

/-- A rotation by a multiple of 16 is the identity. -/
theorem rotateLeft_of_mod_eq_zero {r : Nat} (hr : r % 16 = 0) : x.rotateLeft r = x := by
  refine BitVec.eq_of_getLsbD_eq fun i hi => ?_
  rw [getLsbD_rotateLeft_block _ _ hi]
  congr 1
  omega

theorem rotateLeft_zero_word (r : Nat) : (0#16).rotateLeft r = 0#16 := by
  simp [BitVec.rotateLeft_def]

theorem rotateLeft_eq_zero_iff (r : Nat) : x.rotateLeft r = 0#16 ↔ x = 0#16 := by
  refine ⟨fun h => ?_, fun h => h ▸ rotateLeft_zero_word r⟩
  calc x = (x.rotateLeft r).rotateLeft (16 - r % 16) := by
        rw [rotateLeft_rotateLeft, rotateLeft_of_mod_eq_zero x (by omega)]
    _ = 0#16 := by rw [h, rotateLeft_zero_word]

/-- Only a rotation by a multiple of 16 keeps the word 1. -/
theorem mod_eq_zero_of_rotateLeft_one {r : Nat} (h : (1#16).rotateLeft r = 1#16) : r % 16 = 0 := by
  have hbit : ((1#16).rotateLeft r).getLsbD 0 = true := by rw [h]; rfl
  rw [getLsbD_rotateLeft_block _ _ (by decide), BitVec.getLsbD_one, Bool.and_eq_true, decide_eq_true_eq,
    decide_eq_true_eq] at hbit
  omega

theorem rotateRight_eq_rotateLeft (r : Nat) : x.rotateRight r = x.rotateLeft (16 - r % 16) := by
  refine BitVec.eq_of_getLsbD_eq fun i hi => ?_
  rw [getLsbD_rotateLeft_block _ _ hi, BitVec.getLsbD_rotateRight]
  by_cases hr : i < 16 - r % 16
  · rw [decide_eq_true hr, cond_true]
    congr 1
    omega
  · rw [decide_eq_false hr, cond_false, decide_eq_true hi, Bool.true_and]
    congr 1
    omega

theorem rotateRight_rotateLeft (r : Nat) : (x.rotateLeft r).rotateRight r = x := by
  rw [rotateRight_eq_rotateLeft, rotateLeft_rotateLeft, rotateLeft_of_mod_eq_zero x (by omega)]

theorem rotateLeft_rotateRight (r : Nat) : (x.rotateRight r).rotateLeft r = x := by
  rw [rotateRight_eq_rotateLeft, rotateLeft_rotateLeft, rotateLeft_of_mod_eq_zero x (by omega)]

/-- The model's rotation is the library's, for every amount a key can hold. -/
theorem rotl16_eq_rotateLeft {r : Nat} (hr : r < 16) : rotl16 x r = x.rotateLeft r := by
  unfold rotl16
  split
  case isTrue h => rw [h, rotateLeft_of_mod_eq_zero x rfl]
  case isFalse => rw [BitVec.rotateLeft_eq_rotateLeftAux_of_lt hr, BitVec.rotateLeftAux]

end

/-! ### The cipher as a mask and a rotation (45_cipher.md R311, R312) -/

theorem decryptX_eq (loc : Block) (xorValue : BitVec 8) (startBit rotateAmount : BitVec 4) :
    decryptX loc xorValue startBit rotateAmount =
      (cipherMask xorValue startBit ^^^ loc).rotateLeft rotateAmount.toNat :=
  rotl16_eq_rotateLeft _ rotateAmount.isLt

/-- The mask a key takes the exclusive or with. -/
def keyMask (key : Block) : Block := cipherMask (keyXorValue key) (keyStartBit key)

/-- The number of places a key rotates by. -/
def keyRotation (key : Block) : Nat := (keyRotateAmount key).toNat

theorem cipher_eq (loc key : Block) : cipher loc key = (keyMask key ^^^ loc).rotateLeft (keyRotation key) :=
  decryptX_eq ..

theorem getLsbD_cipherMask (xorValue : BitVec 8) (startBit : BitVec 4) {j : Nat} (hj : j < 16) :
    (cipherMask xorValue startBit).getLsbD j =
      (decide (startBit.toNat ≤ j) && xorValue.getLsbD (j - startBit.toNat)) := by
  rw [cipherMask, BitVec.getLsbD_shiftLeft, BitVec.getLsbD_setWidth, decide_eq_true hj,
    decide_eq_true (show j - startBit.toNat < 16 by omega), Bool.true_and, Bool.true_and, ← decide_not]
  simp only [Nat.not_lt]

theorem cipherMask_zero (startBit : BitVec 4) : cipherMask 0 startBit = 0#16 := by
  simp [cipherMask]

theorem keyMask_of_xorValue_zero {key : Block} (h : keyXorValue key = 0) : keyMask key = 0#16 := by
  rw [keyMask, h, cipherMask_zero]

theorem keyRotation_lt (key : Block) : keyRotation key < 16 := (keyRotateAmount key).isLt

/-- A key that neither masks nor rotates is the identity (R312). -/
theorem cipher_of_fields_zero {key : Block} (hxor : keyXorValue key = 0) (hrot : keyRotateAmount key = 0)
    (loc : Block) : cipher loc key = loc := by
  rw [cipher_eq, keyMask_of_xorValue_zero hxor, BitVec.zero_xor]
  exact rotateLeft_of_mod_eq_zero loc (by rw [keyRotation, hrot]; rfl)

section
variable (key : Block)

/-- The inverse of R313, after the cipher. -/
theorem uncipher_cipher (loc : Block) : (cipher loc key).rotateRight (keyRotation key) ^^^ keyMask key = loc := by
  rw [cipher_eq, rotateRight_rotateLeft, BitVec.xor_comm, ← BitVec.xor_assoc, BitVec.xor_self, BitVec.zero_xor]

/-- The inverse of R313, before the cipher. -/
theorem cipher_uncipher (out : Block) : cipher (out.rotateRight (keyRotation key) ^^^ keyMask key) key = out := by
  rw [cipher_eq, BitVec.xor_comm, BitVec.xor_assoc, BitVec.xor_self, BitVec.xor_zero, rotateLeft_rotateRight]

theorem cipher_bijective : Function.Bijective (fun loc => cipher loc key) :=
  Function.bijective_iff_has_inverse.2
    ⟨fun out => out.rotateRight (keyRotation key) ^^^ keyMask key, uncipher_cipher key, cipher_uncipher key⟩

/-- The low byte of a key rotates as the key does, and has no mask. -/
theorem cipher_lowByte (loc : Block) : cipher loc (key &&& 0x00FF) = loc.rotateLeft (keyRotation key) := by
  have hxor : keyXorValue (key &&& 0x00FF) = 0 := by
    rw [keyXorValue, BitVec.extractLsb'_and, show (0x00FF : Block).extractLsb' 8 8 = 0#8 by decide, BitVec.and_zero]
    rfl
  have hrot : keyRotateAmount (key &&& 0x00FF) = keyRotateAmount key := by
    rw [keyRotateAmount, BitVec.extractLsb'_and, show (0x00FF : Block).extractLsb' 0 4 = BitVec.allOnes 4 by decide,
      BitVec.and_allOnes, keyRotateAmount]
  rw [cipher_eq, keyMask_of_xorValue_zero hxor, BitVec.zero_xor, keyRotation, hrot, keyRotation]

theorem cipher_xor (a b : Block) : cipher (a ^^^ b) key = cipher a key ^^^ cipher b (key &&& 0x00FF) := by
  rw [cipher_lowByte, cipher_eq, cipher_eq, ← BitVec.xor_assoc, rotateLeft_xor]

end

/-! ### Keys that invert a key (45_cipher.md R314) -/

section
variable (key key' : Block)

theorem cipher_cipher (x : Block) :
    cipher (cipher x key) key' =
      (keyMask key' ^^^ (keyMask key).rotateLeft (keyRotation key)).rotateLeft (keyRotation key') ^^^
        x.rotateLeft (keyRotation key + keyRotation key') := by
  rw [cipher_eq, cipher_eq, rotateLeft_xor (keyMask key), ← BitVec.xor_assoc, rotateLeft_xor, rotateLeft_rotateLeft]

/-- The words 0 and 1 show what an inverse key needs: 0 its mask, and 1 its rotation. -/
theorem cipher_inverts_iff :
    (∀ x, cipher (cipher x key) key' = x) ↔
      (keyRotation key + keyRotation key') % 16 = 0 ∧
        keyMask key' = (keyMask key).rotateLeft (keyRotation key) := by
  simp only [cipher_cipher]
  refine ⟨fun h => ?_, fun ⟨hrot, hmask⟩ x => ?_⟩
  · have hmask := h 0#16
    rw [rotateLeft_zero_word, BitVec.xor_zero] at hmask
    have hrot := h 1#16
    rw [hmask, BitVec.zero_xor] at hrot
    exact ⟨mod_eq_zero_of_rotateLeft_one hrot, BitVec.xor_eq_zero_iff.1 ((rotateLeft_eq_zero_iff ..).1 hmask)⟩
  · rw [hmask, BitVec.xor_self, rotateLeft_zero_word, BitVec.zero_xor, rotateLeft_of_mod_eq_zero x hrot]

end

/-- The masks of the keys are the words whose set bits lie within 8 neighbouring positions. -/
theorem exists_cipherMask_iff (w : Block) :
    (∃ xorValue startBit, cipherMask xorValue startBit = w) ↔
      ∃ p < 16, ∀ j < 16, w.getLsbD j = true → p ≤ j ∧ j < p + 8 := by
  constructor
  · rintro ⟨xorValue, startBit, rfl⟩
    refine ⟨startBit.toNat, startBit.isLt, fun j hj hbit => ?_⟩
    rw [getLsbD_cipherMask _ _ hj, Bool.and_eq_true, decide_eq_true_eq] at hbit
    have hlt := BitVec.lt_of_getLsbD hbit.2
    omega
  · rintro ⟨p, hp, hwindow⟩
    have hstart : (BitVec.ofNat 4 p).toNat = p := by rw [BitVec.toNat_ofNat, Nat.mod_eq_of_lt hp]
    refine ⟨w.extractLsb' p 8, BitVec.ofNat 4 p, BitVec.eq_of_getLsbD_eq fun j hj => ?_⟩
    rw [getLsbD_cipherMask _ _ hj, hstart, BitVec.getLsbD_extractLsb']
    by_cases hbit : w.getLsbD j = true
    · obtain ⟨hle, hlt⟩ := hwindow j hj hbit
      rw [Nat.add_sub_cancel' hle, hbit, decide_eq_true hle, decide_eq_true (show j - p < 8 by omega)]
      rfl
    · by_cases hle : p ≤ j
      · simp [Nat.add_sub_cancel' hle, hbit]
      · simp [hle, hbit]

/-- A key holds any three fields (30_encoding.md R123). -/
theorem exists_key (xorValue : BitVec 8) (startBit rotateAmount : BitVec 4) :
    ∃ k, keyXorValue k = xorValue ∧ keyStartBit k = startBit ∧ keyRotateAmount k = rotateAmount := by
  refine ⟨xorValue ++ (startBit ++ rotateAmount), BitVec.extractLsb'_append_eq_left, ?_, ?_⟩
  · exact (BitVec.extractLsb'_append_eq_of_add_le (by decide)).trans BitVec.extractLsb'_append_eq_left
  · exact (BitVec.extractLsb'_append_eq_of_add_le (by decide)).trans BitVec.extractLsb'_append_eq_right

/-- R314: an inverse key exists exactly when some key has the rotated mask, whatever the rotation. -/
theorem exists_inverse_key_iff (key : Block) :
    (∃ key', ∀ x, cipher (cipher x key) key' = x) ↔
      ∃ p < 16, ∀ j < 16, ((keyMask key).rotateLeft (keyRotation key)).getLsbD j = true → p ≤ j ∧ j < p + 8 := by
  rw [← exists_cipherMask_iff]
  constructor
  · rintro ⟨key', hinv⟩
    exact ⟨_, _, ((cipher_inverts_iff key key').1 hinv).2⟩
  · rintro ⟨xorValue, startBit, hmask⟩
    obtain ⟨key', rfl, rfl, hrot⟩ := exists_key xorValue startBit (BitVec.ofNat 4 (16 - keyRotation key))
    refine ⟨key', (cipher_inverts_iff key key').2 ⟨?_, hmask⟩⟩
    have hlt := keyRotation_lt key
    rw [keyRotation, keyRotation, hrot, BitVec.toNat_ofNat, ← keyRotation]
    omega

/-! ### The operations -/

theorem exec_cDecryptX (loc : Block) (xorValue : BitVec 8) (startBit rotateAmount : BitVec 4) (s : State) :
    exec (.cDecryptX loc xorValue startBit rotateAmount) s =
      .next (answer (.decrypted (decryptX loc xorValue startBit rotateAmount)) s) := rfl

/-- C.DECRYPT is C.DECRYPTX with the fields of the key (R312). -/
theorem exec_cDecrypt (loc key : Block) (s : State) :
    exec (.cDecrypt loc key) s = .next (answer (.decrypted (cipher loc key)) s) := rfl

theorem exec_cLookup (mode : Bool) (svc : BitVec 4) (idx : BitVec 5) (s : State) :
    exec (.cLookup mode svc idx) s =
      .next (answer (.key (lookupKey Config.keys mode svc idx).1 (lookupKey Config.keys mode svc idx).2) s) := rfl

section
variable (p : KeyParams) {svc : BitVec 4} (idx : BitVec 5)

theorem lookupKey_flat (svc : BitVec 4) : lookupKey p false svc idx = (true, p.flat idx) := if_pos rfl

theorem lookupKey_row (h : svc.toNat ≤ 7) :
    lookupKey p true svc idx = (true, p.svc (BitVec.ofNat 3 svc.toNat) idx) := by
  rw [lookupKey, if_neg (by decide), if_pos h]
  rfl

theorem lookupKey_no_row (h : 7 < svc.toNat) : lookupKey p true svc idx = (false, 0) := by
  rw [lookupKey, if_neg (by decide), if_neg (Nat.not_le.2 h)]

end

/-! ### The statements -/

/-- Settles O47: `decryptX_eq`, with the operands and with the key's fields. -/
theorem decryptIsXorThenRotate : Obligations.DecryptIsXorThenRotate := by
  intro loc xorValue startBit rotateAmount key s
  refine ⟨⟨_, exec_cDecryptX loc xorValue startBit rotateAmount s, withOwn_answer _ s, ?_⟩,
    _, exec_cDecrypt loc key s, withOwn_answer _ s, ?_, fun hxor hrot => ?_⟩
  · exact congrArg Result.decrypted (decryptX_eq loc xorValue startBit rotateAmount)
  · exact congrArg Result.decrypted (cipher_eq loc key)
  · exact congrArg Result.decrypted (cipher_of_fields_zero hxor hrot loc)

/-- Settles O48: the statement's `m` and `r` are the key's mask and rotation. -/
theorem cipherIsALinearBijection : Obligations.CipherIsALinearBijection := by
  intro key
  exact ⟨cipher_bijective key, uncipher_cipher key, cipher_uncipher key, cipher_xor key⟩

/-- Settles O49: `cipher_inverts_iff` says which keys invert, `exists_inverse_key_iff` when there is one. -/
theorem keyInversionCondition : Obligations.KeyInversionCondition := by
  intro key m r
  have hlt := keyRotation_lt key
  refine ⟨fun key' hinv => ?_, exists_inverse_key_iff key, fun hr => ?_⟩
  · obtain ⟨hrot, hmask⟩ := (cipher_inverts_iff key key').1 hinv
    have hlt' := keyRotation_lt key'
    exact ⟨show keyRotation key' = (16 - keyRotation key) % 16 by omega, hmask⟩
  · have hrot : keyRotation key = 0 := hr
    refine (cipher_inverts_iff key key).2 ⟨by rw [hrot], ?_⟩
    rw [hrot, rotateLeft_of_mod_eq_zero _ rfl]

/-- Settles O50: each line of R316 is a line of the lookup. -/
theorem keyLookup : Obligations.KeyLookup := by
  intro svc idx s
  refine ⟨⟨_, exec_cLookup false svc idx s, withOwn_answer _ s, ?_⟩,
    _, exec_cLookup true svc idx s, withOwn_answer _ s, fun h => ?_, fun h => ?_⟩
  · rw [answer_result, lookupKey_flat]; rfl
  · rw [answer_result, lookupKey_row _ _ h]; rfl
  · rw [answer_result, lookupKey_no_row _ _ h]

end Sys2Proof.Machine

/-! # Proofs of the statements about the host operations (46_host_ops.md)

RESET is idempotent and the power-on state is one it leaves alone, so the values after RESET and at power-on are those
of any state that RESET keeps. The queries answer a function of the state and leave the block alone; the only function
with something to say is the text filter, whose length is the index of the first carriage return
(`textLength_eq_findIdx`) and whose bytes are those of the buffer, mapped, before it and 0 from there on
(`filterText_getElem?`). -/

namespace Sys2Proof.Machine

/-! ### RESET (R330) -/

theorem getSlot_zero (k : SlotId) : getSlot Slots.zero k = AppIdSlot.zero := by cases k <;> rfl

theorem byteAt_stationReset (s : State) (sp : Space) (a : Nat) : (stationReset s).byteAt sp a = blankByte sp := by
  cases sp <;> rfl

theorem stationReset_powerOn : stationReset State.reset = State.reset := rfl

/-- RESET is idempotent (R330), also behind its empty answer. -/
theorem stationReset_answer_stationReset (r : Result) (s : State) :
    stationReset (answer r (stationReset s)) = answer r (stationReset s) := rfl

/-! ### The text filter (R336) -/

section
variable {bs : List Byte}

theorem textLength_eq_findIdx (bs : List Byte) : textLength bs = bs.findIdx (fun c => c == 0x0D) := by
  simp only [textLength, List.takeWhile_eq_take_findIdx_not, bne, Bool.not_not, List.length_take]
  exact min_eq_left List.findIdx_le_length

theorem textLength_le (bs : List Byte) : textLength bs ≤ bs.length := by
  rw [textLength_eq_findIdx]
  exact List.findIdx_le_length

theorem getElem_ne_of_lt_textLength {j : Nat} (hj : j < bs.length) (h : j < textLength bs) : bs[j] ≠ 0x0D := by
  rw [textLength_eq_findIdx] at h
  exact ne_of_beq_false (List.not_of_lt_findIdx h)

theorem getElem_textLength (h : textLength bs < bs.length) : bs[textLength bs] = 0x0D := by
  simp only [textLength_eq_findIdx] at h ⊢
  exact eq_of_beq (List.findIdx_getElem (w := h))

theorem filterText_length (p : FilterParams) (bs : List Byte) : (filterText p bs).bytes.length = bs.length := by
  have hle := textLength_le bs
  simp only [filterText, List.length_append, List.length_map, List.length_take, List.length_replicate]
  omega

/-- One byte of `Filter(B, n)`: truncation is tested first, then the byte is mapped once. -/
theorem filterText_getElem? (p : FilterParams) {j : Nat} (hj : j < bs.length) :
    (filterText p bs).bytes[j]? = some (if textLength bs ≤ j then 0 else mapChar p bs[j]) := by
  have hle := textLength_le bs
  have hlen : ((bs.take (textLength bs)).map (mapChar p)).length = textLength bs := by
    rw [List.length_map, List.length_take, min_eq_left hle]
  by_cases h : textLength bs ≤ j
  · rw [if_pos h, filterText, List.getElem?_append_right (by omega), hlen,
      List.getElem?_replicate_of_lt (by omega)]
  · rw [if_neg h, filterText, List.getElem?_append_left (by omega), List.getElem?_map,
      List.getElem?_take_of_lt (by omega), List.getElem?_eq_getElem hj, Option.map_some]

end

/-- The low 7 bits of a high byte index `HIGH_TABLE`. -/
theorem lowBits_of_high {c : Byte} (h : 0x80 ≤ c.toNat) : c.extractLsb' 0 7 = BitVec.ofNat 7 (c.toNat - 0x80) := by
  apply BitVec.eq_of_toNat_eq
  rw [BitVec.extractLsb'_toNat, BitVec.toNat_ofNat, Nat.shiftRight_zero]
  omega

/-- `Map(c)` of R336 with this block's tables: the tests in the rule's order. -/
theorem mapChar_filter (c : Byte) :
    mapChar Config.filter c =
      if c = 0x24 then Config.remap24
      else if c = 0x5E then Config.remap5E
      else if c = 0x60 then Config.remap60
      else if c = 0x7E then Config.remap7E
      else if 0x80 ≤ c.toNat then Config.highTable (BitVec.ofNat 7 (c.toNat - 0x80))
      else if c = 0x0A ∨ c = 0x0B ∨ c = 0x1F then c
      else if c.toNat < 0x20 then 0x3F
      else if c = 0x7F then 0x3F
      else c := by
  by_cases h : 0x80 ≤ c.toNat
  · rw [← lowBits_of_high h]
    rfl
  · simp only [mapChar, if_neg h]
    rfl

/-! ### One buffer through the filter -/

theorem Memory.getElem_bytes (sp : Space) (m : Memory) {a : Nat} (h : a < (Memory.bytes sp m).length) :
    (Memory.bytes sp m)[a] = Memory.read sp m a := by
  simp [Memory.bytes]

section
variable (s : State) (sp : Space)

theorem filteredBuffer_length : (filteredBuffer s sp).bytes.length = spaceSize sp := by
  rw [filteredBuffer, filterText_length, Memory.bytes_length]

theorem filteredBuffer_len_le : (filteredBuffer s sp).len ≤ spaceSize sp :=
  (textLength_le _).trans_eq (Memory.bytes_length sp _)

theorem byteAt_ne_of_lt_len {j : Nat} (h : j < (filteredBuffer s sp).len) : s.byteAt sp j ≠ 0x0D := by
  have hj : j < (Memory.bytes sp (s.buffer sp)).length := lt_of_lt_of_le h (textLength_le _)
  have hne := getElem_ne_of_lt_textLength hj h
  rwa [Memory.getElem_bytes] at hne

theorem byteAt_len (h : (filteredBuffer s sp).len < spaceSize sp) : s.byteAt sp (filteredBuffer s sp).len = 0x0D := by
  have hlt : textLength (Memory.bytes sp (s.buffer sp)) < (Memory.bytes sp (s.buffer sp)).length := by
    rwa [Memory.bytes_length]
  have heq := getElem_textLength hlt
  rwa [Memory.getElem_bytes] at heq

theorem filteredBuffer_getElem? {j : Nat} (hj : j < spaceSize sp) :
    (filteredBuffer s sp).bytes[j]? =
      some (if (filteredBuffer s sp).len ≤ j then 0 else mapChar Config.filter (s.byteAt sp j)) := by
  have hlt : j < (Memory.bytes sp (s.buffer sp)).length := by rwa [Memory.bytes_length]
  have hbyte := filterText_getElem? Config.filter hlt
  rwa [Memory.getElem_bytes] at hbyte

end

/-! ### The operations -/

theorem exec_qText_of_selector {buf : BitVec 2} {sp : Space} (h : textSelector buf = some sp) (s : State) :
    exec (.qText buf) s = .next (answer (.text (filteredBuffer s sp)) s) := by
  simp only [exec, execQText, h]

theorem exec_qStatus (s : State) : exec .qStatus s = .next (answer (.status (snapshot s)) s) := rfl

theorem exec_qTime (s : State) :
    exec .qTime s = .next (answer (.time (if s.timeAvailable then some s.time else none)) s) := rfl

theorem exec_evCfg (mask : BitVec 7) (s : State) :
    exec (.evCfg mask) s = whenIdle (fun s => answer .none { s with even := mask }) s := rfl

/-! ### The statements -/

/-- Settles O51: the filter's lemmas, for the buffer the selector names. -/
theorem textQueryFiltersTheBuffer : Obligations.TextQueryFiltersTheBuffer := by
  intro buf s
  refine ⟨fun h => by subst h; rfl, fun sp n hbuf => ?_⟩
  obtain ⟨hsel, rfl⟩ : textSelector buf = some sp ∧ n = spaceSize sp := by
    obtain ⟨rfl, rfl, rfl⟩ | ⟨rfl, rfl, rfl⟩ | ⟨rfl, rfl, rfl⟩ := hbuf <;> exact ⟨rfl, rfl⟩
  refine ⟨_, filteredBuffer s sp, exec_qText_of_selector hsel s, rfl, withOwn_answer _ s, filteredBuffer_length s sp,
    filteredBuffer_len_le s sp, fun _ => byteAt_ne_of_lt_len s sp, byteAt_len s sp, fun j hj => ?_⟩
  rw [filteredBuffer_getElem? s sp hj, mapChar_filter]

/-- Settles O35: both states are states that RESET keeps, so each has the values RESET writes. -/
theorem resetAndPowerOnValues : Obligations.ResetAndPowerOnValues := by
  intro s hidle
  refine ⟨_, exec_reset_idle hidle, fun u hu => ?_, rfl⟩
  have hfix : stationReset u = u := by
    obtain rfl | rfl : u = answer .none (stationReset s) ∨ u = State.reset := by simpa using hu
    · exact stationReset_answer_stationReset .none s
    · exact stationReset_powerOn
  rw [← hfix]
  have hbyte := byteAt_stationReset u
  exact ⟨rfl, getSlot_zero, rfl, rfl, rfl, rfl, rfl, rfl,
    fun a => ⟨hbyte .ps a, hbyte .ptyn a, hbyte .rt a, hbyte .eonPs a⟩, rfl, rfl, rfl⟩

/-- Settles O52: the snapshot takes each text through the filter of QTEXT. -/
theorem statusQueryIsASnapshot : Obligations.StatusQueryIsASnapshot := by
  intro s
  exact ⟨_, snapshot s, exec_qStatus s, rfl, withOwn_answer _ s, rfl, rfl, rfl,
    ⟨_, exec_qText_of_selector (sp := .ps) rfl s, rfl⟩, ⟨_, exec_qText_of_selector (sp := .ptyn) rfl s, rfl⟩,
    ⟨_, exec_qText_of_selector (sp := .rt) rfl s, rfl⟩⟩

/-- Settles O53: QTIME by the available flag, EVCFG by whether an event waits. -/
theorem timeQueryAndEventMask : Obligations.TimeQueryAndEventMask := by
  intro s
  refine ⟨⟨_, exec_qTime s, withOwn_answer _ s, fun h => ?_, fun h => ?_⟩, fun mask => ⟨fun hidle => ?_, fun hp => ?_⟩⟩
  · rw [answer_result, if_pos h]
  · rw [answer_result, if_neg (ne_true_of_eq_false h)]
  · exact ⟨_, exec_evCfg_idle mask hidle, rfl, rfl⟩
  · obtain ⟨p, hwaits⟩ := Option.ne_none_iff_exists'.1 hp
    rw [exec_evCfg, whenIdle_pending _ hwaits]

end Sys2Proof.Machine

/-! # Proofs of the statements about events (60_exceptions.md)

An acknowledgement runs what the latch holds behind its event (`step_ack_pending`). On an idle block a group with its
event acknowledged is its writes and then the part behind its event point (`settled_raiseEvent_idle`), and neither reads
the mask (`groupWrites_withEven`, `runBehind_withEven`). A command that needs no idle block answers and writes no more
than the container and the cursor (`exec_runs_at_event_point`). -/

namespace Sys2Proof.Machine

/-! ### The acknowledgement as a step (R360, R361) -/

section
variable {s : State} {tail : List Request}

theorem step_ack (hin : s.inbox = .ack :: tail) : step s = acknowledge { s with inbox := tail } := by
  simp only [step, nextRequest, hin, serve]

theorem step_ack_idle (hin : s.inbox = .ack :: tail) (hidle : s.pending = none) :
    step s = .refused .ackWithoutEvent := by
  simp only [step_ack hin, acknowledge, hidle]

theorem step_ack_pending (hin : s.inbox = .ack :: tail) {p : Pending} (hp : s.pending = some p) :
    step s = .next (runRest p.rest { s with inbox := tail, pending := none }) := by
  simp only [step_ack hin, acknowledge, hp]

end

/-! ### A group under another event mask (R358) -/

/-- The part of a group behind its event point, if it has one (R362). -/
def runBehind : Option Pending → State → State
  | none, s => s
  | some p, s => runRest p.rest s

/-- A group's event, raised and acknowledged, leaves what the part behind the event point leaves: the mask decides only
whether the host waits in between. -/
theorem settled_raiseEvent_idle (e : Option Pending) {s : State} (hidle : s.pending = none) :
    settled (raiseEvent e s) = runBehind e s := by
  cases e with
  | none => simp only [raiseEvent, runBehind, settled, hidle]
  | some p => exact settled_emit _ _ _ _ _ _ hidle

/-- `s` under another event mask. -/
def State.withEven (s : State) (m : BitVec 7) : State := { s with even := m }

section
variable (s : State) (m : BitVec 7)

@[simp] theorem withEven_rtToggle : (s.withEven m).rtToggle = s.rtToggle := rfl

theorem withEven_self : s.withEven s.even = s := rfl

theorem withEven_withEven (m' : BitVec 7) : (s.withEven m).withEven m' = s.withEven m' := rfl

theorem runBehind_withEven (e : Option Pending) : runBehind e (s.withEven m) = (runBehind e s).withEven m := by
  cases e with
  | none => rfl
  | some p =>
    simp only [runBehind]
    cases p.rest <;> rfl

theorem groupEvent_withEven (i : Instr) : groupEvent (s.withEven m) i = groupEvent s i := by
  cases i <;> rfl

theorem clockUpdate_withEven (mjd : BitVec 17) (hour : BitVec 5) (minute : BitVec 6) (tzSign : Bool)
    (tzMag : BitVec 5) :
    clockUpdate mjd hour minute tzSign tzMag (s.withEven m) =
      (clockUpdate mjd hour minute tzSign tzMag s).withEven m := by
  unfold clockUpdate
  split <;> rfl

theorem groupWrites_withEven (i : Instr) : groupWrites (s.withEven m) i = (groupWrites s i).withEven m := by
  cases i with
  | group1A => simp only [groupWrites, slowUpdate_eq]; rfl
  | group2A | group2B => simp only [groupWrites, withEven_rtToggle, apply_ite (State.withEven · m)]; rfl
  | group3A => simp only [groupWrites, slotUpdate]; split <;> rfl
  | group4A => simp only [groupWrites, apply_ite (State.withEven · m), ← clockUpdate_withEven]; rfl
  | group14A => simp only [groupWrites, eonVariantUpdate_eq]; rfl
  | _ => rfl

end

/-- A group that completes, carried to its end: its writes and what stands behind its event point. -/
theorem settled_exec_group {i : Instr} (hg : isGroup i = true) {s : State} (hidle : s.pending = none) :
    ∃ t, exec i s = .next t ∧ settled t = runBehind (groupEvent s i) (groupWrites s i) :=
  ⟨_, (exec_group hg s).trans (whenIdle_idle _ hidle),
    settled_raiseEvent_idle _ ((groupWrites_pending s i).trans hidle)⟩

/-- A group carried to its end neither reads nor writes the mask. -/
theorem runBehind_group_withEven (s : State) (m : BitVec 7) (i : Instr) :
    runBehind (groupEvent (s.withEven m) i) (groupWrites (s.withEven m) i) =
      (runBehind (groupEvent s i) (groupWrites s i)).withEven m := by
  rw [groupEvent_withEven, groupWrites_withEven, runBehind_withEven]

/-! ### Operations at an event point (R361) -/

theorem exec_reset (s : State) : exec .reset s = whenIdle (fun s => answer .none (stationReset s)) s := rfl

/-- What needs an idle block is a group, RESET or EVCFG, and is refused while an event waits. -/
theorem exec_refused_at_event_point {i : Instr} (hi : needsIdle i = true) {s : State} {p : Pending}
    (hp : s.pending = some p) : exec i s = .refused .eventPending := by
  by_cases hg : isGroup i = true
  · exact (exec_group hg s).trans (whenIdle_pending _ hp)
  cases i with
  | reset => rw [exec_reset, whenIdle_pending _ hp]
  | evCfg => rw [exec_evCfg, whenIdle_pending _ hp]
  | qStatus | qText | qTime | cDecrypt | cDecryptX | cLookup | uClear | uLoad | uGlue | uFlt | uRestart | uSetCur
  | uRead | uLabel | tClass3A | tClass8A => cases hi
  | _ => exact absurd rfl hg

theorem legalReadSize_iff {n : Nat} : legalReadSize n = true ↔ 1 ≤ n ∧ n ≤ 16 := by
  rw [legalReadSize, decide_eq_true_eq]

/-- Every other operation with operands in its domain completes at a legal cursor, whether or not an event waits: it
answers, and writes no more than the container and the cursor. -/
theorem exec_runs_at_event_point {i : Instr} (hi : needsIdle i = false) (hw : i.wellFormed = true) {s : State}
    (hk : legalCursor s.cur = true) : ∃ r c k, exec i s = .next (answer r { s with cont := c, cur := k }) := by
  cases i with
  | qText buf =>
    obtain ⟨sp, hsel⟩ := Option.isSome_iff_exists.1 hw
    exact ⟨_, s.cont, s.cur, exec_qText_of_selector hsel s⟩
  | uFlt w =>
    by_cases hm : w.extractLsb' 10 6 = Config.fltMagic
    · exact ⟨_, _, s.cur, exec_uFlt_of_match hm s⟩
    · exact ⟨_, s.cont, s.cur, exec_uFlt_of_mismatch hm s⟩
  | uSetCur c => exact ⟨.none, s.cont, cursorOfWord c, if_pos hw⟩
  | uRead size =>
    obtain ⟨h1, h16⟩ := legalReadSize_iff.1 hw
    exact ⟨_, s.cont, _, exec_uRead_readable h1 h16 (.inl hk)⟩
  | uLabel => exact ⟨_, s.cont, _, exec_uLabel_readable (.inl hk)⟩
  | qStatus | qTime | cDecrypt | cDecryptX | cLookup | tClass3A | tClass8A => exact ⟨_, s.cont, s.cur, rfl⟩
  | uLoad | uGlue => exact ⟨.none, _, s.cur, rfl⟩
  | uRestart => exact ⟨.none, s.cont, _, rfl⟩
  | uClear => exact ⟨.none, _, _, rfl⟩
  | _ => cases hi

/-! ### What the latch takes and gives up (R357, R359) -/

/-- No command fills or empties the latch. -/
theorem exec_command_pending {i : Instr} {s t : State} (hg : isGroup i = false) (h : exec i s = .next t) :
    t.pending = s.pending := by
  by_cases hr : i = .reset
  · subst hr
    obtain ⟨-, rfl⟩ := exec_reset_next h
    rfl
  · rw [exec_command_frame hg hr h]

/-! ### The statements -/

/-- Settles O7: the acknowledgement's step by the content of the latch, and the bytes of one segment over a cleared
buffer. -/
theorem acknowledgementRunsTheRest : Obligations.AcknowledgementRunsTheRest := by
  intro s tail hin
  refine ⟨step_ack_idle hin, fun e hp => step_ack_pending hin hp, fun e tog seg c0 c1 c2 c3 hp => ?_,
    fun e tog seg c0 c1 hp => ?_⟩
  · exact ⟨_, step_ack_pending hin hp, rfl, rfl, rfl,
      read_segWrite_laidQuad .rt seg.toNat c0 c1 c2 c3 clearedBuffer, rfl⟩
  · exact ⟨_, step_ack_pending hin hp, rfl, rfl, rfl, read_segWrite_laidPair .rt seg.toNat c0 c1 clearedBuffer, rfl⟩

/-- Settles O25: a group carried to its end commutes with the change of mask, and so also with the change back. -/
theorem disabledEventChangesNoWrite : Obligations.DisabledEventChangesNoWrite := by
  intro i s m hg hidle
  obtain ⟨t, ht, htend⟩ := settled_exec_group hg hidle
  obtain ⟨u, hu, huend⟩ := settled_exec_group hg (s := s.withEven m) hidle
  refine ⟨t, u, ht, hu, ?_⟩
  calc (settled u).withEven s.even
      = ((runBehind (groupEvent s i) (groupWrites s i)).withEven m).withEven s.even := by
        rw [huend, runBehind_group_withEven]
    _ = (runBehind (groupEvent s i) (groupWrites s i)).withEven s.even := withEven_withEven ..
    _ = runBehind (groupEvent s i) (groupWrites s i) := by rw [← runBehind_group_withEven, withEven_self]
    _ = settled t := htend.symm

/-- Settles O26: the refusals by `whenIdle`, and everything else by its frame. -/
theorem eventPointAdmitsQueriesAndUnits : Obligations.EventPointAdmitsQueriesAndUnits := by
  intro i s p hp
  refine ⟨fun hi => exec_refused_at_event_point hi hp, fun hi hw hk => ?_⟩
  obtain ⟨r, c, k, h⟩ := exec_runs_at_event_point hi hw hk
  exact ⟨_, h, hp, rfl⟩

/-- Settles O27, by the kinds of step: an acknowledgement empties the latch, a group found it empty, and a command
leaves it alone. -/
theorem eventsComeFromGroupsAlone : Obligations.EventsComeFromGroupsAlone := by
  intro s t h hne
  rcases step_next h with ⟨-, rfl⟩ | ⟨rest, p, hin, hp, rfl⟩ | ⟨port, i, rest, hin, hd, he⟩
  · exact absurd rfl hne
  · exact .inr ⟨rest, hin, hp ▸ Option.some_ne_none p, runRest_pending ..⟩
  cases port with
  | group w =>
    cases hd
    obtain ⟨hidle, -⟩ := exec_group_next (isGroup_decodeGroup w) he
    have hempty : s.pending = none := hidle
    exact .inl ⟨w, rest, hin, hempty, hempty ▸ hne⟩
  | command w => exact absurd (exec_command_pending (isGroup_decodeCommand hd) he) hne

end Sys2Proof.Machine

/-! # Proofs of the statements about reset (70_reset_and_hazards.md)

At power-on every buffer lists nothing, no event waits and the time is not available, so the clauses of the invariant
about the latch and the time hold of no event and no date, and the rest are those of cleared buffers, zero slots and
the fresh cursor. -/

namespace Sys2Proof.Machine

/-! ### The parts of the power-on state (R381, R382) -/

theorem contSlice_zero (j : Nat) : contSlice Cont.zero j = 0 := by
  match j with
  | 0 | 1 | 2 | _ + 3 => rfl

/-- A slot of zeros is an unassigned slot, whatever the application ids are (10_state.md R28). -/
theorem slotsSound_zero (p : AidParams) : slotsSound p Slots.zero := ⟨.inl rfl, .inl rfl, .inl rfl, .inl rfl⟩

theorem pending_powerOn : State.reset.pending = none := rfl

theorem timeAvailable_powerOn : State.reset.timeAvailable = false := rfl

/-! ### The statements -/

/-- Settles O34, clause by clause: no event waits and no time is available. -/
theorem invHoldsAtReset : Obligations.InvHoldsAtReset where
  psCanonical := clearedBuffer_wf _
  ptynCanonical := clearedBuffer_wf _
  rtCanonical := clearedBuffer_wf _
  eonPsCanonical := clearedBuffer_wf _
  cursorLegal := legalCursor_fresh
  pendingSound := fun _ hwaits => absurd (pending_powerOn.symm.trans hwaits) (Option.some_ne_none _).symm
  slotsKnown := slotsSound_zero _
  timeInRange := fun havail => absurd havail (ne_true_of_eq_false timeAvailable_powerOn)

/-- Settles O57: the mask, the cursor and the latch as the power-on state names them, the slices by
`contSlice_zero`. -/
theorem powerOnStateOutsideReset : Obligations.PowerOnStateOutsideReset :=
  ⟨rfl, contSlice_zero, rfl, pending_powerOn⟩

end Sys2Proof.Machine
